-- ==== Sys2Proof/Word.lean ====
section
/-! DEFINITION. The word types of the DG-830 and the plainest operations on banks of like things. -/

namespace Sys2Proof

/-- One octet of the cue link (R2, R5). -/
abbrev Byte := BitVec 8

/-- A counter of the part (R21, R184). -/
abbrev Count := BitVec 16

/-- A moment of the model's clock, in bit times of 250 ns (R2): the upper 48 bits are the governor's
microsecond time base (R45). DESIGN CHOICE, log 2. -/
abbrev Ticks := BitVec 50

/-- A value of the governor's 48-bit microsecond time base (R45). -/
abbrev Micros := BitVec 48

/-- Index of an axis and of its winch line. -/
abbrev AxisId := Fin 8

/-- Index of a rig. -/
abbrev RigId := Fin 4

/-- Index of a general line. -/
abbrev GenId := Fin 6

namespace Bank

variable {α β : Type} {n : Nat}

/-- The member of a bank at an index. -/
def at' (v : Vector α n) (i : Fin n) : α := v[i]

/-- The bank with the member at an index replaced. -/
def put (v : Vector α n) (i : Fin n) (x : α) : Vector α n := v.set i.val x i.isLt

/-- The bank whose member at each index is formed from the index and the member that stood there. -/
def mapIdx (f : Fin n → α → β) (v : Vector α n) : Vector β n :=
  ⟨⟨List.zipWith f (List.finRange n) v.toList⟩, by simp⟩

/-- A bank all of whose members are alike. -/
def all (n : Nat) (x : α) : Vector α n := Vector.replicate n x

/-- The bank whose member at each index is given by the index. -/
def tabulate (n : Nat) (f : Fin n → α) : Vector α n := mapIdx (fun i _ => f i) (Vector.replicate n ())

@[simp] theorem at_put (v : Vector α n) (i j : Fin n) (x : α) :
    at' (put v i x) j = if i = j then x else at' v j := by
  simp only [at', put]
  simp [Vector.getElem_set, Fin.ext_iff]

@[simp] theorem at_mapIdx (f : Fin n → α → β) (v : Vector α n) (j : Fin n) :
    at' (mapIdx f v) j = f j (at' v j) := by
  simp [at', mapIdx]

@[simp] theorem at_all (x : α) (j : Fin n) : at' (all n x) j = x := by
  simp [at', all]

@[simp] theorem at_tabulate (f : Fin n → α) (j : Fin n) : at' (tabulate n f) j = f j := by
  simp [tabulate]

/-- Two banks are equal when their members at every index are. -/
theorem ext_at {v w : Vector α n} (h : ∀ i, at' v i = at' w i) : v = w := by
  apply Vector.ext
  intro i hi
  exact h ⟨i, hi⟩

end Bank

/-- The eight axes in ascending index. -/
def allAxes : List AxisId := [0, 1, 2, 3, 4, 5, 6, 7]

/-- The four rigs in ascending index. -/
def allRigs : List RigId := [0, 1, 2, 3]

/-- The six general lines in ascending index. -/
def allGens : List GenId := [0, 1, 2, 3, 4, 5]

@[simp] theorem mem_allAxes (n : AxisId) : n ∈ allAxes := by revert n; decide
@[simp] theorem mem_allRigs (r : RigId) : r ∈ allRigs := by revert r; decide
@[simp] theorem mem_allGens (k : GenId) : k ∈ allGens := by revert k; decide

end Sys2Proof
end

