-- ==== Sys2Proof/Syntax.lean ====
section
/-! DEFINITION. The commands of the DG-830: one constructor for each row of spec/opcode_table.json. A
command is one whole and indivisible step of the part (95_what_each_step_holds.md). The table gives the
rows no bits and no fields: the operands are what a step brings from outside (log 1, log 2, log 6). -/

namespace Sys2Proof

/-- The three cue-link ports (R2). -/
inductive PortId where
  | u | da | db
deriving DecidableEq, Repr

/-- The two logical branches (R31). -/
inductive BranchId where
  | b0 | b1
deriving DecidableEq, Repr

/-- The 36 discrete lines of R174. -/
inductive LineId where
  | brk (n : AxisId)
  | sns (n : AxisId)
  | eot (n : AxisId)
  | stopIn
  | clearIn
  | clearOut
  | adr (k : Fin 3)
  | gl (k : GenId)
deriving DecidableEq, Repr

/-- The place of a line in the order of R174: BRK, SNS, EOT, STOP_IN, CLEAR_IN, CLEAR_OUT, ADR, GL. -/
def LineId.idx : LineId → Fin 36
  | .brk n => ⟨n.val, by omega⟩
  | .sns n => ⟨8 + n.val, by omega⟩
  | .eot n => ⟨16 + n.val, by omega⟩
  | .stopIn => 24
  | .clearIn => 25
  | .clearOut => 26
  | .adr k => ⟨27 + k.val, by omega⟩
  | .gl k => ⟨30 + k.val, by omega⟩

/-- The 36 lines in the order of R174. -/
def LineId.all : List LineId :=
  allAxes.map .brk ++ allAxes.map .sns ++ allAxes.map .eot ++ [.stopIn, .clearIn, .clearOut]
    ++ [.adr 0, .adr 1, .adr 2] ++ allGens.map .gl

/-- The commands. A `wait` is the time in bit times from the command before it to the moment of this
one (log 2). -/
inductive Instr where
  /-- RESET_N_ASSERT (R175): RESET_N goes low. -/
  | resetNAssert
  /-- RESET_N_RELEASE (R176): RESET_N returns high; the levels of the three receive lines at that
  moment, true for mark (R23). -/
  | resetNRelease (uMark daMark dbMark : Bool)
  /-- RECEIVE_CHARACTER (R3, R7): the ten bits of a character have been sampled. `octet` holds the data
  bits, `stopMark` the level of the stop bit, `span` the nanoseconds from the leading edge of the start
  bit to the leading edge of the stop bit as R8 measures them; the moment is the end of the stop bit. -/
  | receiveCharacter (port : PortId) (octet : Byte) (stopMark : Bool) (span : Nat) (wait : Nat)
  /-- GAP (R4): idle reaches two character times. -/
  | gap (port : PortId)
  /-- LONG_BREAK (R15): a break reaches 80 µs. -/
  | longBreak (port : PortId)
  /-- RETURN_TO_MARK (R15): the line has stood at mark for one bit time after a break. -/
  | returnToMark (port : PortId) (wait : Nat)
  /-- FRAME_COMPLETE (R16): the stop bit of the second CRC octet has ended. -/
  | frameComplete (port : PortId)
  /-- TRANSMIT_COMPLETE (R19): a frame and its trailing gap have been sent. -/
  | transmitComplete (port : PortId)
  /-- PACE_TIMER_EXPIRY (R52). -/
  | paceTimerExpiry
  /-- LAPSE_EXPIRY (R49). -/
  | lapseExpiry
  /-- STEP_START (R57, R58): the step engine takes the due step. -/
  | stepStart
  /-- STEP_COMPLETION (R59), no later than 150 µs after the start (R56). -/
  | stepCompletion (wait : Nat)
  /-- TAKE_SETPOINT (R42). -/
  | takeSetpoint
  /-- TAKE_REPORT (R126). -/
  | takeReport
  /-- READ_TABLE (R68). -/
  | readTable
  /-- WRITE_TABLE (R69). -/
  | writeTable
  /-- ARM (R151). -/
  | arm
  /-- DISARM (R155). -/
  | disarm
  /-- STOP_ALL (R153). -/
  | stopAll
  /-- RESET_TRIP (R154). -/
  | resetTrip
  /-- RELEASE (R105). -/
  | release
  /-- LOCK (R111). -/
  | lock
  /-- RECOVER (R122). -/
  | recover
  /-- ACK_EVENTS (R183). -/
  | ackEvents
  /-- READ_LINES (R174). -/
  | readLines
  /-- READ_COUNTERS (R185). -/
  | readCounters
  /-- PORT_RESET (R22); the level of the named port's receive line at the taking, true for mark. -/
  | portReset (lineAtMark : Bool)
  /-- UNKNOWN_REQUEST (R178). -/
  | unknownRequest
  /-- SENSE_NOTICE (R108). -/
  | senseNotice
  /-- EOT_NOTICE (R164). -/
  | eotNotice
  /-- STOP_CLEAR_NOTICE (R159). -/
  | stopClearNotice
  /-- RIG_HOLD_NOTICE (R140). -/
  | rigHoldNotice
  /-- ARM_KEY_NOTICE (R163). -/
  | armKeyNotice
  /-- BRAKE_CONTEST_NOTICE (R167). -/
  | brakeContestNotice
  /-- TRIP_ENTRY (R124). -/
  | tripEntry
  /-- INPUT_PIN_CHANGE (R160): the pin of a line goes to a level, true for high. -/
  | inputPinChange (line : LineId) (high : Bool) (wait : Nat)
  /-- INPUT_ACCEPTED (R160): the filter time of a line's noted change has passed. -/
  | inputAccepted (line : LineId)
  /-- SETTLE_EXPIRY (R167): the contest expiry time of an axis is reached. -/
  | settleExpiry (axis : AxisId)
  /-- MISMATCH_EXPIRY (R167): the mismatch time of an axis is reached. -/
  | mismatchExpiry (axis : AxisId)
  /-- FALSE_START (R3): an edge whose start bit does not sample space; the moment is the line's return
  to mark. -/
  | falseStart (port : PortId) (wait : Nat)
deriving DecidableEq, Repr

end Sys2Proof
end

