-- ==== Sys2Proof/Decode.lean ====
section
/-! DEFINITION. Reading a command from a word. The DG-830 is a block: it fetches nothing, and
spec/opcode_table.json gives none of its rows any bits, so no word spells a command (log 27). -/

namespace Sys2Proof

/-- The command a word spells by the table's bits: no row has bits, so none. -/
def decodeTableWord (_nbits _w : Nat) : Option Instr := none

end Sys2Proof
end

