-- ==== Sys2Proof/Config.lean ====
section
/-! DEFINITION. What the DG-830 fixes for good: times, capacities and ranges the spec gives as numbers.
The model has no free value: the spec gives every command its effect and every effect its value. -/

namespace Sys2Proof.Config

/-- Bit times in one microsecond: one bit time is 250 ns (R2). -/
def ticksPerMicro : Nat := 4

/-- One 10-bit character in bit times (R2). -/
def charTicks : Nat := 10

/-- A gap is idle line of two character times, 5 µs (R4). -/
def gapTicks : Nat := 20

/-- A break of 32 character times, 80 µs, is a long break (R15). -/
def longBreakTicks : Nat := 320

/-- The rate check admits a SYNC span of 2,160 ns to 2,340 ns (R8). -/
def spanMin : Nat := 2160
def spanMax : Nat := 2340

/-- The SYNC octet (R5). -/
def sync : Byte := 0x55

/-- The greatest LEN (R5, R9). -/
def maxLen : Nat := 192

/-- Frames in a receive FIFO (R17), the forward FIFO (R30) and a passthrough FIFO (R39). -/
def fifoDepth : Nat := 4

/-- Responses in U's response FIFO (R36). -/
def responseDepth : Nat := 2

/-- Pairs in a history ring (R130). -/
def ringDepth : Nat := 8

/-- A step completes no later than 150 µs after it begins (R56), in bit times. -/
def stepTicks : Nat := 600

/-- The filter time of every fixed input, in microseconds (R160). -/
def fixedFilterMicros : Nat := 2000

/-- One whole of a rig fraction (R82). -/
def wholeFraction : Nat := 16777216

/-- The greatest position of a table (R63). -/
def maxPosition : Nat := 60000000

end Sys2Proof.Config
end

