-- ==== Sys2Proof/Machine/State.lean ====
section
/-! DEFINITION. The state of the DG-830 as plain data, and the state right after reset. -/

namespace Sys2Proof.Machine

/-- Why the machine stops with a fault. The spec gives the governor no fault that stops it: a line's
fault, a trip and a refused request are effects on the state (R112, R146, R180). No meaning raises one,
which is safe. -/
inductive Fault where
deriving DecidableEq, Repr

/-- Why the machine has no meaning for a command. -/
inductive Refusal where
  /-- Raised by the dispatch of a command that has no meaning yet; safe, since nothing is claimed of it. -/
  | notModelled (mnemonic : String)
deriving DecidableEq, Repr

/-! ## Frames, receivers and ports (01_the_cue_link.md) -/

/-- A frame without its envelope: LEN is the length of the payload, the CRC is computed (R5, R20). -/
structure Frame where
  addr : Byte
  kind : Byte
  seq : Byte
  payload : List Byte
deriving DecidableEq, Repr

/-- A good frame in a receive FIFO with its arrival time (R16, R17). -/
structure Received where
  frame : Frame
  arrival : Micros
deriving DecidableEq, Repr

/-- The four receiver states (R7 to R15). -/
inductive RxMode where
  /-- HUNT with its gap-seen flag. -/
  | hunt (gapSeen : Bool)
  /-- RECEIVE: the octets after SYNC in order (the fourth is LEN) and the running CRC. -/
  | receive (octets : List Byte) (crc : BitVec 16)
  | discard
  /-- BREAK, and whether LONG_BREAK has been counted for this break. -/
  | brk (counted : Bool)
deriving DecidableEq, Repr

/-- A receiver (R3, R4, R22). -/
structure Receiver where
  mode : RxMode
  /-- The last mark-to-space edge framed (R3). -/
  lastEdge : Ticks
  /-- The end of the stop bit of the last framed character (R3). -/
  lastStop : Ticks
  /-- The start of the idle measurement in progress (R4). -/
  idleFrom : Option Ticks
  /-- The line has been at space since a reset of the receiver and has not returned to mark (R22, R23). -/
  heldSpace : Bool
deriving DecidableEq, Repr

/-- A frame being sent, SYNC to second CRC octet, and the moment its trailing gap ends (R19). -/
structure Sending where
  octets : List Byte
  freeAt : Ticks
deriving DecidableEq, Repr

/-- The ten counters of a port in the order of R21. -/
inductive PortCounter where
  | good | crc | short | tooLong | framing | rate | overrun | brk | longBreak | aborted
deriving DecidableEq, Repr

/-- One cue-link port. -/
structure Port where
  rx : Receiver
  fifo : List Received
  tx : Option Sending
  counters : Vector Count 10
deriving DecidableEq, Repr

/-! ## Router and transmit queues (02_routing_and_queues.md) -/

/-- The branch mapping (R31). -/
inductive Mapping where
  | straight | crossed
deriving DecidableEq, Repr

/-- The router's mapping, cross-detect count and interval record (R31, R33, R34). -/
structure Router where
  mapping : Mapping
  crossCount : Nat
  fromDA : Bool
  fromDB : Bool
  notCrossed : Bool
  /-- An interval that the next step start will judge is running (R34). -/
  intervalOpen : Bool
deriving DecidableEq, Repr

/-- The command slot and the passthrough FIFO of a branch (R38, R39). -/
structure BranchQueues where
  command : Option Frame
  passthrough : List Frame
deriving DecidableEq, Repr

/-- Every transmit queue (R35 to R39). -/
structure Queues where
  status : Option Frame
  responses : List Frame
  forward : List Frame
  b0 : BranchQueues
  b1 : BranchQueues
deriving DecidableEq, Repr

/-! ## Cadence monitor and step engine (03_cadence_and_steps.md) -/

/-- The cadence states (R46 to R49). -/
inductive CadenceState where
  | unlocked | locking | locked
deriving DecidableEq, Repr

/-- The cadence monitor (R45 to R53). -/
structure Cadence where
  state : CadenceState
  lockCount : Nat
  missCount : Nat
  lastArrival : Option Micros
  lapse : Option Micros
  /-- The pace timer's next expiry; none while it is stopped (R52). -/
  paceNext : Option Micros
deriving DecidableEq, Repr

/-- What paces a step (R51). -/
inductive StepSource where
  | timer | setpoint
deriving DecidableEq, Repr

/-- The lines that place notices (R54, R162). -/
inductive NoticeLine where
  | sns (n : AxisId)
  | eot (n : AxisId)
  | stopIn
  | clearIn
  | gl (k : GenId)
deriving DecidableEq, Repr

/-- A notice (R54). -/
inductive Notice where
  /-- A line notice: its latest filtered state and its activated flag. -/
  | line (src : NoticeLine) (active activated : Bool)
  /-- A brake contest notice; the one expiry kind is BRAKE_NOT_OPEN (R167). -/
  | contest (n : AxisId)
  | tripEntry
deriving DecidableEq, Repr

/-- The step engine's own state (R43, R51, R54 to R57). -/
structure Engine where
  due : Bool
  /-- The step in flight, with the step source that stood when it began (R56, R59). -/
  inFlight : Option StepSource
  gseq : Byte
  lastStepStart : Micros
  lastSeq : Option Byte
  notices : List Notice
  nextBranch : BranchId
deriving DecidableEq, Repr

/-! ## Tables (04_axis_and_rig_tables.md, 09_discrete_lines.md) -/

/-- An axis entry (R62 to R64). -/
structure AxisEntry where
  enabled : Bool
  branch : BranchId
  drive : Nat
  lo : Nat
  hi : Nat
  vmax : Nat
  amax : Nat
  dmax : Nat
  dstop : Nat
  crawl : Nat
  followTol : Nat
  echoDelay : Nat
  settle : Nat
  park : Option Nat
deriving DecidableEq, Repr

/-- What the members of a rig do after a fault stop (R65). -/
inductive Profile where
  | stopHold | stopDwellPark
deriving DecidableEq, Repr

/-- A rig entry (R65); the first member is the lead. -/
structure RigEntry where
  members : List AxisId
  proportional : Bool
  skewTol : Nat
  profile : Profile
  dwell : Nat
deriving DecidableEq, Repr

/-- The global record (R66). -/
structure Globals where
  P : Nat
  W : Nat
  nLock : Nat
  J : Nat
  L : Nat
  tb : Nat
  reportLapse : Nat
  chainUse : Bool
  swapAuto : Bool
deriving DecidableEq, Repr

/-- The functions of a general line (R170). -/
inductive LineFn where
  | none | readyOut | tripOut | eventOut | motionOut | rigHoldIn | armKeyIn
deriving DecidableEq, Repr

/-- A line entry (R170). -/
structure LineEntry where
  fn : LineFn
  arg : RigId
  invert : Bool
  filter : Nat
deriving DecidableEq, Repr

/-! ## Axis contexts (06_axis_states.md) -/

/-- The fault causes of an axis (R98, R196). -/
inductive Cause where
  | followErr | reportLost | driveFault | eot | brakeNotOpen | rigSkew | rigMember | rigHold
deriving DecidableEq, Repr

/-- The kind of a stop ramp (R94). -/
inductive RampKind where
  | normal | fault
deriving DecidableEq, Repr

/-- The state a releasing axis enters when it opens (R98). -/
inductive ReleaseNext where
  | follow | recovering
deriving DecidableEq, Repr

/-- The ten axis states; a field that belongs to one state stands in that state (R98, R99). -/
inductive AxisState where
  | offline
  | standby
  | locked
  | releasing (next : ReleaseNext) (isOpen : Bool)
  | follow
  | stopping (ramp : RampKind)
  | holding (counter : Nat)
  | dwelling
  | parking
  | recovering
deriving DecidableEq, Repr

/-- The first fault cause with its step number and position (R112). -/
structure FaultRecord where
  cause : Cause
  step : Byte
  position : Int
deriving DecidableEq, Repr

/-- A report as an axis keeps it (R128). -/
structure Report where
  position : Int
  ready : Bool
  fault : Bool
deriving DecidableEq, Repr

/-- A stored following error and the GSEQ that stood when its report was taken (R132). -/
structure FollowError where
  error : Int
  gseq : Byte
deriving DecidableEq, Repr

/-- A pair of a history ring (R130). -/
structure RingPair where
  step : Byte
  p : Int
deriving DecidableEq, Repr

/-- An axis context (R98). -/
structure Ctx where
  state : AxisState
  p : Int
  v : Int
  t : Int
  fault : Option FaultRecord
  /-- Later-cause set, bit (code - 1) (R192). -/
  later : BitVec 8
  lastReport : Option Report
  lastFollow : Option FollowError
  fresh : Bool
  lapse : Nat
  ring : List RingPair
  clamped : Bool
  scaled : Bool
  lookahead : Bool
deriving DecidableEq, Repr

/-! ## Governor control (08_arming_and_trips.md) -/

/-- The governor states. -/
inductive GovState where
  | safe | armed | tripped
deriving DecidableEq, Repr

/-- The eight trip causes (R143, R196). -/
inductive TripCause where
  | stopIn | chain | cadence | brakeStuck | longBreak | stopRequest | escalation | brakeSlip
deriving DecidableEq, Repr

/-- Governor control (R143): its state, the trip-cause set (bits of R196), the condition flags. -/
structure Governor where
  state : GovState
  causes : BitVec 8
  stop : Bool
  chain : Bool
  cadence : Bool
  stuck : Bool
deriving DecidableEq, Repr

/-! ## Line block (09_discrete_lines.md) -/

/-- A line's pin level, accepted level and noted change (R160). A strap's accepted level is the value
sampled at the release (R24, R174). -/
structure Line where
  pin : Bool
  accepted : Bool
  noted : Option Micros
deriving DecidableEq, Repr

/-- The phase of a brake contest (R166). -/
inductive Phase where
  | settling (expiry : Micros)
  | watching (mismatch : Option Micros)
deriving DecidableEq, Repr

/-- A brake contest (R166). -/
structure Contest where
  permission : Bool
  phase : Phase
  stuck : Bool
deriving DecidableEq, Repr

/-- The levels the line block drives (R157, R165, R172); none for a general line that is an input. -/
structure Outputs where
  brk : Vector Bool 8
  clearOut : Bool
  gl : Vector (Option Bool) 6
deriving DecidableEq, Repr

end Sys2Proof.Machine

namespace Sys2Proof.Machine

/-- Everything the spec gives the governor, and the queue of waiting commands. -/
structure State where
  pending : List Instr
  resetLow : Bool
  clock : Ticks
  u : Port
  da : Port
  db : Port
  router : Router
  queues : Queues
  cadence : Cadence
  engine : Engine
  axisTable : Vector AxisEntry 8
  rigTable : Vector RigEntry 4
  globals : Globals
  lineTable : Vector LineEntry 6
  axes : Vector Ctx 8
  dwell : Vector (Option Nat) 4
  governor : Governor
  lines : Vector Line 36
  contests : Vector (Option Contest) 8
  motion : Vector Bool 4
  outputs : Outputs
  latch : BitVec 22
  counters : Vector Count 20
deriving DecidableEq, Repr

/-! ## Reset values -/

/-- A receiver at a reset of its port, from the level of its line and the clock (R22, R23). -/
def Receiver.start (atMark : Bool) (now : Ticks) (edge stop : Ticks) : Receiver where
  mode := .hunt false
  lastEdge := edge
  lastStop := stop
  idleFrom := if atMark then some now else none
  heldSpace := !atMark

/-- A port at the release of RESET_N (R23). DESIGN CHOICE, log 9: the last edge and stop times are 0. -/
def Port.initial (atMark : Bool) : Port where
  rx := Receiver.start atMark 0 0 0
  fifo := []
  tx := none
  counters := Bank.all 10 0

/-- The default axis entry (R62 to R64). -/
def AxisEntry.initial : AxisEntry where
  enabled := false
  branch := .b0
  drive := 0
  lo := 0
  hi := 1000000
  vmax := 16
  amax := 1
  dmax := 1
  dstop := 1
  crawl := 16
  followTol := 100
  echoDelay := 1
  settle := 25
  park := none

/-- The default rig entry (R65). -/
def RigEntry.initial : RigEntry where
  members := []
  proportional := true
  skewTol := 100
  profile := .stopHold
  dwell := 250

/-- The default global record (R66). -/
def Globals.initial : Globals where
  P := 4000
  W := 200
  nLock := 16
  J := 3
  L := 3
  tb := 200
  reportLapse := 3
  chainUse := false
  swapAuto := true

/-- The default line entry (R170). -/
def LineEntry.initial : LineEntry where
  fn := .none
  arg := 0
  invert := false
  filter := 5

/-- An empty context, OFFLINE (R98, R142). -/
def Ctx.initial : Ctx where
  state := .offline
  p := 0
  v := 0
  t := 0
  fault := none
  later := 0
  lastReport := none
  lastFollow := none
  fresh := false
  lapse := 0
  ring := []
  clamped := false
  scaled := false
  lookahead := false

/-- Empty transmit queues (R40). -/
def Queues.initial : Queues where
  status := none
  responses := []
  forward := []
  b0 := { command := none, passthrough := [] }
  b1 := { command := none, passthrough := [] }

/-- The state at the release of RESET_N (R23, R40, R60, R61, R98, R101, R142, R143, R161, R176, R182,
R184, R188), from the pin levels and the receive-line levels at that moment. The commands that wait are
none of the part's. -/
def State.released (pins : Vector Bool 36) (uMark daMark dbMark : Bool) (pending : List Instr) :
    State where
  pending := pending
  resetLow := false
  clock := 0
  u := Port.initial uMark
  da := Port.initial daMark
  db := Port.initial dbMark
  router := { mapping := .straight, crossCount := 0, fromDA := false, fromDB := false,
              notCrossed := false, intervalOpen := false }
  queues := Queues.initial
  cadence := { state := .unlocked, lockCount := 0, missCount := 0, lastArrival := none, lapse := none,
               paceNext := some 4000 }
  engine := { due := false, inFlight := none, gseq := 0, lastStepStart := 0, lastSeq := none,
              notices := [], nextBranch := .b0 }
  axisTable := Bank.all 8 AxisEntry.initial
  rigTable := Bank.all 4 RigEntry.initial
  globals := Globals.initial
  lineTable := Bank.all 6 LineEntry.initial
  axes := Bank.all 8 Ctx.initial
  dwell := Bank.all 4 none
  governor := { state := .safe, causes := 0, stop := !(Bank.at' pins LineId.stopIn.idx), chain := false,
                cadence := true, stuck := false }
  lines := Bank.mapIdx (fun _ b => { pin := b, accepted := b, noted := none }) pins
  contests := Bank.all 8 none
  motion := Bank.all 4 false
  outputs := { brk := Bank.all 8 false, clearOut := true, gl := Bank.all 6 none }
  latch := 1
  counters := Bank.all 20 0

/-- The pin levels at State.reset, in the order of R174. DESIGN CHOICE, log 7: the outputs' pins stand
at the levels the part drives, every brake senses engaged, no line has overtravelled, STOP_IN and
CLEAR_IN stand high, the straps and the general lines low. -/
def restPins : Vector Bool 36 :=
  Bank.tabulate 36 fun i => (16 ≤ i.val && i.val < 27)

/-- The machine right after reset. -/
def State.reset : State := State.released restPins true true true []

end Sys2Proof.Machine
end

