-- ==== Sys2Proof/Machine/Flags.lean ====
section
/-! DEFINITION. Flags and counts: the event latch (R182), the saturating counters (R21, R184), the
trip-cause set and the fault-cause sets (R192, R196). -/

namespace Sys2Proof.Machine

/-! ## Counters -/

/-- A counter after one more event: it saturates at 65,535 (R21, R184). -/
def satInc (c : Count) : Count := if c = 65535 then c else c + 1

/-- The place of a port counter in the order of R21. -/
def PortCounter.idx : PortCounter → Fin 10
  | .good => 0
  | .crc => 1
  | .short => 2
  | .tooLong => 3
  | .framing => 4
  | .rate => 5
  | .overrun => 6
  | .brk => 7
  | .longBreak => 8
  | .aborted => 9

/-- The twenty global counters (R184). -/
inductive GlobalCounter where
  | badSetpoint | duplicate | seqGap | jitter | unrouted | passBlocked | crossed | stale | fwdDrop
  | mgmtDrop
  | targetClamped (n : AxisId)
  | late (b : BranchId)
deriving DecidableEq, Repr

/-- The place of a global counter in the order of R184. -/
def GlobalCounter.idx : GlobalCounter → Fin 20
  | .badSetpoint => 0
  | .duplicate => 1
  | .seqGap => 2
  | .jitter => 3
  | .unrouted => 4
  | .passBlocked => 5
  | .crossed => 6
  | .stale => 7
  | .fwdDrop => 8
  | .mgmtDrop => 9
  | .targetClamped n => ⟨10 + n.val, by omega⟩
  | .late .b0 => 18
  | .late .b1 => 19

/-- One event of a global counter (R184). -/
def State.bump (c : GlobalCounter) (s : State) : State :=
  { s with counters := Bank.put s.counters c.idx (satInc (Bank.at' s.counters c.idx)) }

/-- The value of a global counter. -/
def State.count (s : State) (c : GlobalCounter) : Count := Bank.at' s.counters c.idx

/-! ## Event latch -/

/-- The twenty-two event flags (R182). -/
inductive EventFlag where
  | powerUp | trip
  | axisFault (n : AxisId)
  | rigFault (r : RigId)
  | cadence | linkU
  | link (b : BranchId)
  | late (b : BranchId)
  | swap | mgmtDrop
deriving DecidableEq, Repr

/-- The number of an event flag (R182). -/
def EventFlag.idx : EventFlag → Nat
  | .powerUp => 0
  | .trip => 1
  | .axisFault n => 2 + n.val
  | .rigFault r => 10 + r.val
  | .cadence => 14
  | .linkU => 15
  | .link .b0 => 16
  | .link .b1 => 17
  | .late .b0 => 18
  | .late .b1 => 19
  | .swap => 20
  | .mgmtDrop => 21

/-- The latch with one flag set (R182). -/
def State.latchEvent (e : EventFlag) (s : State) : State :=
  { s with latch := s.latch ||| BitVec.twoPow 22 e.idx }

/-- An event flag is set. -/
def State.hasEvent (s : State) (e : EventFlag) : Bool := s.latch.getLsbD e.idx

/-! ## Trip causes -/

/-- The bit of a trip cause (R196). -/
def TripCause.bit : TripCause → Nat
  | .stopIn => 0
  | .chain => 1
  | .cadence => 2
  | .brakeStuck => 3
  | .longBreak => 4
  | .stopRequest => 5
  | .escalation => 6
  | .brakeSlip => 7

/-- A trip cause is in a set. -/
def causeHeld (set : BitVec 8) (c : TripCause) : Bool := set.getLsbD c.bit

/-- A set with a cause added. -/
def causeAdd (set : BitVec 8) (c : TripCause) : BitVec 8 := set ||| BitVec.twoPow 8 c.bit

/-- A set with a cause removed. -/
def causeDrop (set : BitVec 8) (c : TripCause) : BitVec 8 := set &&& ~~~(BitVec.twoPow 8 c.bit)

/-- The set of the active causes whose condition flags are set (R143, R144). -/
def Governor.activeCauses (g : Governor) : BitVec 8 :=
  (if g.stop then BitVec.twoPow 8 TripCause.stopIn.bit else 0)
    ||| (if g.chain then BitVec.twoPow 8 TripCause.chain.bit else 0)
    ||| (if g.cadence then BitVec.twoPow 8 TripCause.cadence.bit else 0)
    ||| (if g.stuck then BitVec.twoPow 8 TripCause.brakeStuck.bit else 0)

/-! ## Fault causes -/

/-- The code of a fault cause (R196). -/
def Cause.code : Cause → Nat
  | .followErr => 1
  | .reportLost => 2
  | .driveFault => 3
  | .eot => 4
  | .brakeNotOpen => 5
  | .rigSkew => 6
  | .rigMember => 7
  | .rigHold => 8

/-- The later-cause set with a cause added; each is held once (R112, R192). -/
def laterAdd (set : BitVec 8) (c : Cause) : BitVec 8 := set ||| BitVec.twoPow 8 (c.code - 1)

/-- A cause is in the later-cause set. -/
def laterHeld (set : BitVec 8) (c : Cause) : Bool := set.getLsbD (c.code - 1)

/-- A cause is already in the fault record of a context (R135). -/
def Ctx.holds (x : Ctx) (c : Cause) : Bool :=
  (match x.fault with
    | some f => f.cause == c
    | none => false) || laterHeld x.later c

end Sys2Proof.Machine
end

