-- ==== Sys2Proof/Machine/Operands.lean ====
section
/-! DEFINITION. How values stand in octets: readers and writers of payloads, the CRC (R6), the envelope
(R5, R20), the table entries (R195), the code lists (R196), the KIND codes (R190). -/

namespace Sys2Proof.Machine

/-! ## Octets, low octet first (R1) -/

/-- The octet at an offset as a number; 0 beyond the end, which no judged layout reads. -/
def u8 (o : List Byte) (i : Nat) : Nat := (o.getD i 0).toNat

/-- Two octets, low first. -/
def u16 (o : List Byte) (i : Nat) : Nat := u8 o i + 256 * u8 o (i + 1)

/-- Three octets, low first. -/
def u24 (o : List Byte) (i : Nat) : Nat := u16 o i + 65536 * u8 o (i + 2)

/-- Four octets, low first. -/
def u32 (o : List Byte) (i : Nat) : Nat := u16 o i + 65536 * u16 o (i + 2)

/-- Four octets, low first, as a two's-complement value (R1). -/
def s32 (o : List Byte) (i : Nat) : Int := (BitVec.ofNat 32 (u32 o i)).toInt

/-- One octet of a number. -/
def put8 (x : Nat) : List Byte := [BitVec.ofNat 8 x]

/-- A number in two octets, low first. -/
def put16 (x : Nat) : List Byte := [BitVec.ofNat 8 x, BitVec.ofNat 8 (x / 256)]

/-- A number in three octets, low first. -/
def put24 (x : Nat) : List Byte := put16 x ++ put8 (x / 65536)

/-- A number in four octets, low first. -/
def put32 (x : Nat) : List Byte := put16 x ++ put16 (x / 65536)

/-- A signed number in four octets, two's complement, low first (R1, R191, R192). -/
def putS32 (x : Int) : List Byte := put32 (BitVec.ofInt 32 x).toNat

/-- The code of yes and no (R195). -/
def codeBool (b : Bool) : Nat := if b then 1 else 0

/-! ## Codes (R190, R196) -/

def kindSetpoint : Byte := 0x10
def kindCommand : Byte := 0x11
def kindReport : Byte := 0x12
def kindRequest : Byte := 0x20
def kindResponse : Byte := 0x21
def kindStatus : Byte := 0x22

/-- The console's address and the address of all drives on a branch (Address Classes, R59). -/
def addrConsole : Byte := 0x00
def addrAllDrives : Byte := 0xFE

def AxisState.code : AxisState → Nat
  | .offline => 0
  | .standby => 1
  | .locked => 2
  | .releasing _ _ => 3
  | .follow => 4
  | .stopping _ => 5
  | .holding _ => 6
  | .dwelling => 7
  | .parking => 8
  | .recovering => 9

def GovState.code : GovState → Nat
  | .safe => 0
  | .armed => 1
  | .tripped => 2

def CadenceState.code : CadenceState → Nat
  | .unlocked => 0
  | .locking => 1
  | .locked => 2

def branchCode : BranchId → Nat
  | .b0 => 0
  | .b1 => 1

def Mapping.code : Mapping → Nat
  | .straight => 0
  | .crossed => 1

def Profile.code : Profile → Nat
  | .stopHold => 0
  | .stopDwellPark => 1

def LineFn.code : LineFn → Nat
  | .none => 0
  | .readyOut => 1
  | .tripOut => 2
  | .eventOut => 3
  | .motionOut => 4
  | .rigHoldIn => 5
  | .armKeyIn => 6

/-- The function a code names; NONE for a code that names none, which R170 refuses before use. -/
def lineFnOf (code : Nat) : LineFn :=
  match code with
  | 1 => .readyOut
  | 2 => .tripOut
  | 3 => .eventOut
  | 4 => .motionOut
  | 5 => .rigHoldIn
  | 6 => .armKeyIn
  | _ => .none

/-- The refusal codes of CAUSE_ACTIVE (R196). -/
inductive RefusalCode where
  | notFresh | eot | driveFault | outside | inside | rigHold | armKey | cadence | stopIn | chain | noAxis
  | brakeReleased | brakeStuck
deriving DecidableEq, Repr

def RefusalCode.code : RefusalCode → Nat
  | .notFresh => 1
  | .eot => 2
  | .driveFault => 3
  | .outside => 4
  | .inside => 5
  | .rigHold => 6
  | .armKey => 7
  | .cadence => 8
  | .stopIn => 9
  | .chain => 10
  | .noAxis => 11
  | .brakeReleased => 12
  | .brakeStuck => 14

/-- The result of a request with the details it carries (R180). -/
inductive Result where
  | ok | badRequest | badTable | badIndex
  | badValue (entry field : Nat)
  | wrongState (g : GovState) (axis : Option AxisState)
  | wrongTarget
  | causeActive (code : RefusalCode) (index : Option Nat)
  | inRig (entry : Nat)
deriving DecidableEq, Repr

def Result.code : Result → Nat
  | .ok => 0
  | .badRequest => 1
  | .badTable => 2
  | .badIndex => 3
  | .badValue _ _ => 4
  | .wrongState _ _ => 5
  | .wrongTarget => 6
  | .causeActive _ _ => 7
  | .inRig _ => 8

/-- The two detail octets of a result; 0xFF for an absent detail (R194). -/
def Result.details : Result → List Byte
  | .ok | .badRequest | .badTable | .badIndex | .wrongTarget => put8 0xFF ++ put8 0xFF
  | .badValue e f => put8 e ++ put8 f
  | .wrongState g a => put8 g.code ++ put8 (match a with
      | some x => x.code
      | none => 0xFF)
  | .causeActive c i => put8 c.code ++ put8 (i.getD 0xFF)
  | .inRig e => put8 e ++ put8 0xFF

/-! ## CRC and envelope -/

/-- One data bit into the CRC register (R6). -/
def crcBit (r : BitVec 16) (b : Bool) : BitVec 16 :=
  if r.msb == b then r <<< 1 else (r <<< 1) ^^^ 0x1021

/-- One octet into the CRC register, most significant bit first (R6). -/
def crcOctet (r : BitVec 16) (o : Byte) : BitVec 16 :=
  [7, 6, 5, 4, 3, 2, 1, 0].foldl (fun q i => crcBit q (o.getLsbD i)) r

/-- The CRC of a run of octets; the register starts at 0xFFFF (R6). -/
def crcOf (o : List Byte) : BitVec 16 := o.foldl crcOctet 0xFFFF

/-- The octets a frame's CRC covers: ADDR, KIND, SEQ, LEN, payload (R6). -/
def Frame.covered (f : Frame) : List Byte :=
  [f.addr, f.kind, f.seq, BitVec.ofNat 8 f.payload.length] ++ f.payload

/-- A frame as it is sent: SYNC, the covered octets, the CRC low octet first (R5, R20). -/
def Frame.octets (f : Frame) : List Byte :=
  Config.sync :: f.covered ++ put16 (crcOf f.covered).toNat

/-- The number of octets that follow SYNC in a frame with LEN n. -/
def afterSync (len : Nat) : Nat := 4 + len + 2

/-- The octets after SYNC make up a whole frame: header, LEN octets of payload, CRC (R9). -/
def frameWhole (o : List Byte) : Bool := 4 ≤ o.length && o.length == afterSync (u8 o 3)

/-- The frame read from the octets after SYNC. -/
def frameOf (o : List Byte) : Frame where
  addr := o.getD 0 0
  kind := o.getD 1 0
  seq := o.getD 2 0
  payload := (o.drop 4).take (u8 o 3)

/-- The two CRC octets as received, low octet first (R16). -/
def crcReceived (o : List Byte) : Nat := u16 o (4 + u8 o 3)

/-! ## Table entries (R195) -/

/-- The four tables (R61). -/
inductive TableId where
  | axis | rig | globals | line
deriving DecidableEq, Repr

/-- The table a code names (R195). -/
def tableOf (code : Nat) : Option TableId :=
  match code with
  | 0 => some .axis
  | 1 => some .rig
  | 2 => some .globals
  | 3 => some .line
  | _ => none

/-- Octets of one entry (R195). -/
def TableId.width : TableId → Nat
  | .axis => 32
  | .rig => 13
  | .globals => 12
  | .line => 4

/-- Entries of a table (R61). -/
def TableId.entries : TableId → Nat
  | .axis => 8
  | .rig => 4
  | .globals => 1
  | .line => 6

/-- Most entries in one request (R61). -/
def TableId.most : TableId → Nat
  | .axis => 5
  | .rig => 4
  | .globals => 1
  | .line => 6

/-- The octets of an axis entry. -/
def AxisEntry.encode (e : AxisEntry) : List Byte :=
  put8 (codeBool e.enabled) ++ put8 (branchCode e.branch) ++ put8 e.drive ++ put32 e.lo ++ put32 e.hi
    ++ put16 e.vmax ++ put16 e.amax ++ put16 e.dmax ++ put16 e.dstop ++ put16 e.crawl
    ++ put32 e.followTol ++ put8 e.echoDelay ++ put8 e.settle
    ++ put8 (codeBool e.park.isSome) ++ put32 (e.park.getD 0)

/-- The axis entry its octets carry; used only where every field passes R70. -/
def AxisEntry.decode (o : List Byte) : AxisEntry where
  enabled := u8 o 0 == 1
  branch := if u8 o 1 = 0 then .b0 else .b1
  drive := u8 o 2
  lo := u32 o 3
  hi := u32 o 7
  vmax := u16 o 11
  amax := u16 o 13
  dmax := u16 o 15
  dstop := u16 o 17
  crawl := u16 o 19
  followTol := u32 o 21
  echoDelay := u8 o 25
  settle := u8 o 26
  park := if u8 o 27 = 1 then some (u32 o 28) else none

/-- The index an octet names, reduced to the bank's size; used only where the octet is in range. -/
def axisIdOf (x : Nat) : AxisId := ⟨x % 8, by omega⟩

/-- The member octets of a rig entry that are read: the first count of them (R195). -/
def rigMembers (o : List Byte) : List Nat := ((List.range 4).take (u8 o 0)).map fun k => u8 o (1 + k)

/-- The octets of a rig entry; a member octet beyond the count is 0xFF (R195). -/
def RigEntry.encode (e : RigEntry) : List Byte :=
  put8 e.members.length
    ++ ((e.members.map fun n => BitVec.ofNat 8 n.val) ++ List.replicate (4 - e.members.length) 0xFF)
    ++ put8 (codeBool e.proportional) ++ put32 e.skewTol ++ put8 e.profile.code ++ put16 e.dwell

/-- The rig entry its octets carry; used only where every field passes R71. -/
def RigEntry.decode (o : List Byte) : RigEntry where
  members := (rigMembers o).map axisIdOf
  proportional := u8 o 5 == 1
  skewTol := u32 o 6
  profile := if u8 o 10 = 1 then .stopDwellPark else .stopHold
  dwell := u16 o 11

/-- The octets of the global record. -/
def Globals.encode (g : Globals) : List Byte :=
  put16 g.P ++ put16 g.W ++ put8 g.nLock ++ put8 g.J ++ put8 g.L ++ put16 g.tb ++ put8 g.reportLapse
    ++ put8 (codeBool g.chainUse) ++ put8 (codeBool g.swapAuto)

/-- The global record its octets carry; used only where every field passes R72. -/
def Globals.decode (o : List Byte) : Globals where
  P := u16 o 0
  W := u16 o 2
  nLock := u8 o 4
  J := u8 o 5
  L := u8 o 6
  tb := u16 o 7
  reportLapse := u8 o 9
  chainUse := u8 o 10 == 1
  swapAuto := u8 o 11 == 1

/-- The octets of a line entry. -/
def LineEntry.encode (e : LineEntry) : List Byte :=
  put8 e.fn.code ++ put8 e.arg.val ++ put8 (codeBool e.invert) ++ put8 e.filter

/-- The line entry its octets carry; used only where every field passes R170. -/
def LineEntry.decode (o : List Byte) : LineEntry where
  fn := lineFnOf (u8 o 0)
  arg := ⟨u8 o 1 % 4, by omega⟩
  invert := u8 o 2 == 1
  filter := u8 o 3

end Sys2Proof.Machine
end

