-- ==== Sys2Proof/Machine/Ops.lean ====
section
/-! DEFINITION. The named operations over the state: time, ports, filtered lines, notices, governor
control, brake contests, axis contexts and rigs. -/

namespace Sys2Proof.Machine

/-! ## Time (R45) -/

/-- The time base at a moment of the clock, any fraction dropped (R16, R45). -/
def microsOf (t : Ticks) : Micros := t.extractLsb' 2 48

/-- The governor's microsecond time base (R45). -/
def State.timeBase (s : State) : Micros := microsOf s.clock

/-- The clock at a value of the time base. -/
def ticksOf (t : Micros) : Ticks := t ++ (0 : BitVec 2)

/-- The moment `now` has reached the moment `d`: their difference, taken modulo the clock's width, lies
in the forward half (R45; DEDUCED, log 4). -/
def reached (d now : Ticks) : Bool := !(now - d).msb

/-- The time base `now` has reached the time `d` (R45; DEDUCED, log 4). -/
def reachedMicros (d now : Micros) : Bool := !(now - d).msb

/-- The state a number of bit times later (R45). -/
def State.elapse (wait : Nat) (s : State) : State := { s with clock := s.clock + BitVec.ofNat 50 wait }

/-- The state at a moment: the clock moves forward to it, or stays when it is already reached (log 2). -/
def State.advanceTo (d : Ticks) (s : State) : State :=
  if reached d s.clock then s else { s with clock := d }

/-- A time of the time base plus a number of microseconds, modulo its width (R45). -/
def addMicros (t : Micros) (n : Nat) : Micros := t + BitVec.ofNat 48 n

/-! ## Ports and branches -/

/-- The port of an id. -/
def State.port (s : State) : PortId → Port
  | .u => s.u
  | .da => s.da
  | .db => s.db

/-- The state with one port replaced. -/
def State.setPort (p : PortId) (x : Port) (s : State) : State :=
  match p with
  | .u => { s with u := x }
  | .da => { s with da := x }
  | .db => { s with db := x }

/-- The port that carries a branch (R31). -/
def portOf : Mapping → BranchId → PortId
  | .straight, .b0 => .da
  | .straight, .b1 => .db
  | .crossed, .b0 => .db
  | .crossed, .b1 => .da

/-- The branch a drive port carries; none for U (R31). -/
def branchOn : Mapping → PortId → Option BranchId
  | _, .u => none
  | .straight, .da => some .b0
  | .straight, .db => some .b1
  | .crossed, .da => some .b1
  | .crossed, .db => some .b0

/-- The other mapping. -/
def Mapping.flip : Mapping → Mapping
  | .straight => .crossed
  | .crossed => .straight

/-- The branch that is not this one. -/
def otherBranch : BranchId → BranchId
  | .b0 => .b1
  | .b1 => .b0

/-- The queues of a branch. -/
def State.branch (s : State) : BranchId → BranchQueues
  | .b0 => s.queues.b0
  | .b1 => s.queues.b1

/-- The state with the queues of a branch replaced. -/
def State.setBranch (b : BranchId) (x : BranchQueues) (s : State) : State :=
  match b with
  | .b0 => { s with queues := { s.queues with b0 := x } }
  | .b1 => { s with queues := { s.queues with b1 := x } }

/-- The state with a port's receiver replaced. -/
def State.setRx (p : PortId) (x : Receiver) (s : State) : State := s.setPort p { s.port p with rx := x }

/-- The state with a port's receive FIFO replaced. -/
def State.setFifo (p : PortId) (x : List Received) (s : State) : State :=
  s.setPort p { s.port p with fifo := x }

/-- The state with a port's transmitter replaced. -/
def State.setTx (p : PortId) (x : Option Sending) (s : State) : State :=
  s.setPort p { s.port p with tx := x }

/-- The value of a port counter. -/
def State.portCount (s : State) (p : PortId) (c : PortCounter) : Count :=
  Bank.at' (s.port p).counters c.idx

/-- One event of a port counter (R21). -/
def State.bumpPort (p : PortId) (c : PortCounter) (s : State) : State :=
  let q := s.port p
  s.setPort p { q with counters := Bank.put q.counters c.idx (satInc (Bank.at' q.counters c.idx)) }

/-- The link event of a port under a mapping (R21). -/
def linkEvent (m : Mapping) (p : PortId) : EventFlag :=
  match branchOn m p with
  | none => .linkU
  | some b => .link b

/-- One error of a port: its counter and its link event (R21). -/
def State.linkError (p : PortId) (c : PortCounter) (s : State) : State :=
  (s.bumpPort p c).latchEvent (linkEvent s.router.mapping p)

/-! ## Discrete lines -/

/-- The line of an id. -/
def State.line (s : State) (l : LineId) : Line := Bank.at' s.lines l.idx

/-- The state with one line replaced. -/
def State.setLine (l : LineId) (x : Line) (s : State) : State := { s with lines := Bank.put s.lines l.idx x }

/-- The filtered logical state of a line, active or not, formed from its accepted level: EOT and STOP_IN
are active low, a general line is inverted by its entry, a strap shows its sampled value (pin summary,
R160, R171, R174). -/
def State.filtered (s : State) : LineId → Bool
  | .eot n => !(s.line (.eot n)).accepted
  | .stopIn => !(s.line .stopIn).accepted
  | .gl k => (s.line (.gl k)).accepted != (Bank.at' s.lineTable k).invert
  | l => (s.line l).accepted

/-- The filtered sense of an axis shows its brake released (R166). -/
def State.senseReleased (s : State) (n : AxisId) : Bool := s.filtered (.sns n)

/-- The filter time of a line in microseconds (R160). -/
def State.filterMicros (s : State) : LineId → Nat
  | .gl k => (Bank.at' s.lineTable k).filter * 1000
  | _ => Config.fixedFilterMicros

/-- The governor's station address: 0xF0 plus the straps sampled at the release (R24). -/
def State.station (s : State) : Byte :=
  0xF0 + (if (s.line (.adr 0)).accepted then 1 else 0) + (if (s.line (.adr 1)).accepted then 2 else 0)
    + (if (s.line (.adr 2)).accepted then 4 else 0)

/-- Some general line with a function is active. -/
def State.someLine (s : State) (p : LineEntry → Bool) (active : Bool) : Bool :=
  allGens.any fun k => p (Bank.at' s.lineTable k) && s.filtered (.gl k) == active

/-- A general line assigned RIG_HOLD_IN for a rig is active (R106). -/
def State.rigHoldActive (s : State) (r : RigId) : Bool :=
  s.someLine (fun e => e.fn == .rigHoldIn && e.arg == r) true

/-- A general line assigned ARM_KEY_IN is inactive (R106, R122, R151). -/
def State.armKeyOff (s : State) : Bool := s.someLine (fun e => e.fn == .armKeyIn) false

/-! ## Notices (R54) -/

/-- A notice comes from a line. -/
def Notice.fromLine (src : NoticeLine) : Notice → Bool
  | .line x _ _ => x == src
  | _ => false

/-- The list with a line's notice placed: a waiting one keeps its place, takes the new state, and its
activated flag is set when the new state is active (R54, R162). -/
def placeLineNotice (src : NoticeLine) (active : Bool) (l : List Notice) : List Notice :=
  if l.any (Notice.fromLine src) then
    l.map fun n => match n with
      | .line x a act => if x = src then .line x active (act || active) else .line x a act
      | other => other
  else l ++ [.line src active active]

/-- The list with a notice of a source without contents placed, unless one already waits (R54). -/
def placeOnce (n : Notice) (l : List Notice) : List Notice := if n ∈ l then l else l ++ [n]

/-- The state with its notice list replaced. -/
def State.setNotices (l : List Notice) (s : State) : State := { s with engine := { s.engine with notices := l } }

/-! ## Governor control (R143 to R146) -/

/-- Entry into TRIPPED: the state, the TRIP event, the trip entry notice, in this order (R146). -/
def State.enterTripped (s : State) : State :=
  let s1 := { s with governor := { s.governor with state := .tripped } }
  let s2 := s1.latchEvent .trip
  s2.setNotices (placeOnce .tripEntry s2.engine.notices)

/-- A cause joins the trip-cause set: not held in SAFE, trips in ARMED, is added in TRIPPED
(R144, R145, R146). -/
def State.joinCause (c : TripCause) (s : State) : State :=
  let added := { s with governor := { s.governor with causes := causeAdd s.governor.causes c } }
  match s.governor.state with
  | .safe => s
  | .armed => added.enterTripped
  | .tripped => added

/-- An active cause leaves the set in ARMED or TRIPPED (R144). -/
def State.leaveCause (c : TripCause) (s : State) : State :=
  match s.governor.state with
  | .safe => s
  | _ => { s with governor := { s.governor with causes := causeDrop s.governor.causes c } }

/-- Whether a condition flag is set: STOP_IN, CHAIN, CADENCE and BRAKE_STUCK have one (R143). -/
def Governor.condition (g : Governor) : TripCause → Bool
  | .stopIn => g.stop
  | .chain => g.chain
  | .cadence => g.cadence
  | .brakeStuck => g.stuck
  | _ => false

/-- Governor control with a condition flag at a value. -/
def Governor.withCondition (g : Governor) (c : TripCause) (b : Bool) : Governor :=
  match c with
  | .stopIn => { g with stop := b }
  | .chain => { g with chain := b }
  | .cadence => { g with cadence := b }
  | .brakeStuck => { g with stuck := b }
  | _ => g

/-- A block reports its condition to governor control: a change sets or clears the flag, and the active
cause joins or leaves the set (R143, R144). -/
def State.reportCondition (c : TripCause) (b : Bool) (s : State) : State :=
  if s.governor.condition c = b then s
  else
    let s1 := { s with governor := s.governor.withCondition c b }
    if b then s1.joinCause c else s1.leaveCause c

/-! ## Axis states, brake permission and brake contests -/

/-- The brake permission of an axis state (R99). -/
def AxisState.permission : AxisState → Bool
  | .offline | .standby | .locked => false
  | .releasing _ _ | .follow | .stopping _ | .holding _ | .dwelling | .parking | .recovering => true

/-- The context of an axis. -/
def State.ctx (s : State) (n : AxisId) : Ctx := Bank.at' s.axes n

/-- The state with the context of an axis replaced; its brake contest is not touched. -/
def State.setCtx (n : AxisId) (x : Ctx) (s : State) : State := { s with axes := Bank.put s.axes n x }

/-- The entry of an axis. -/
def State.entry (s : State) (n : AxisId) : AxisEntry := Bank.at' s.axisTable n

/-- The entry of a rig. -/
def State.rig (s : State) (r : RigId) : RigEntry := Bank.at' s.rigTable r

/-- The brake contest of an axis. -/
def State.contest (s : State) (n : AxisId) : Option Contest := Bank.at' s.contests n

/-- The state with the brake contest of an axis replaced. -/
def State.setContest (n : AxisId) (x : Option Contest) (s : State) : State :=
  { s with contests := Bank.put s.contests n x }

/-- The stuck flag of an axis's contest. -/
def State.stuckAxis (s : State) (n : AxisId) : Bool :=
  match s.contest n with
  | some c => c.stuck
  | none => false

/-- Some axis's stuck flag is set (R149, R168). -/
def State.anyStuck (s : State) : Bool := allAxes.any s.stuckAxis

/-- The contests report their stuck flags to governor control (R149, R168). -/
def State.reportStuck (s : State) : State := s.reportCondition .brakeStuck s.anyStuck

/-- A contest in SETTLING with its expiry Tb from now (R166). -/
def State.freshContest (s : State) (permission : Bool) : Contest where
  permission := permission
  phase := .settling (addMicros s.timeBase (s.globals.tb * 1000))
  stuck := false

/-- A running contest restarts at a change of BRKn (R166); a stuck flag ends and is reported (R168). -/
def State.restartContest (n : AxisId) (permission : Bool) (s : State) : State :=
  match s.contest n with
  | none => s
  | some _ => (s.setContest n (some (s.freshContest permission))).reportStuck

/-- An axis takes a context whose state may differ: when its brake permission changes, its contest
restarts (R99, R165, R166). -/
def State.changeCtx (n : AxisId) (x : Ctx) (s : State) : State :=
  if (s.ctx n).state.permission = x.state.permission then s.setCtx n x
  else (s.setCtx n x).restartContest n x.state.permission

/-- An axis enters a state with the rest of its context as it stands. -/
def State.enterState (n : AxisId) (st : AxisState) (s : State) : State :=
  s.changeCtx n { s.ctx n with state := st }

/-- A contest starts at the enable transition (R166). -/
def State.startContest (n : AxisId) (s : State) : State := s.setContest n (some (s.freshContest false))

/-- A contest stops at the disable transition; a set stuck flag is reported as ended (R166). -/
def State.stopContest (n : AxisId) (s : State) : State := (s.setContest n none).reportStuck

/-! ## Rigs -/

/-- A rig is in use when it has members (R65). -/
def RigEntry.inUse (e : RigEntry) : Bool := !e.members.isEmpty

/-- The rig in use that an axis is a member of. -/
def State.rigOf (s : State) (n : AxisId) : Option RigId :=
  allRigs.find? fun r => (s.rig r).members.contains n

/-- The axis is RELEASING toward FOLLOW with its open flag set (R101). -/
def AxisState.openToFollow : AxisState → Bool
  | .releasing .follow true => true
  | _ => false

/-- The open-set of a rig: the members marked open during a rig release (R101, log 21). -/
def State.openSet (s : State) (r : RigId) : List AxisId :=
  (s.rig r).members.filter fun n => (s.ctx n).state.openToFollow

/-- The state with the dwell count of a rig replaced. -/
def State.setDwell (r : RigId) (x : Option Nat) (s : State) : State := { s with dwell := Bank.put s.dwell r x }

/-! ## What the line block drives -/

/-- CLEAR_OUT is high while the governor is not TRIPPED and either chain_use is clear or CLEAR_IN is
filtered high, and RESET_N is not low (R157). -/
def State.clearOutLevel (s : State) : Bool :=
  !s.resetLow && s.governor.state != .tripped && (!s.globals.chainUse || s.filtered .clearIn)

/-- The condition of a general-line output; none for an input (R170, R172). -/
def State.lineCondition (s : State) (e : LineEntry) : Option Bool :=
  match e.fn with
  | .none | .rigHoldIn | .armKeyIn => none
  | .readyOut => some (s.governor.state == .armed)
  | .tripOut => some (s.governor.state == .tripped)
  | .eventOut => some (s.latch != 0)
  | .motionOut => some (Bank.at' s.motion e.arg)

/-- The level driven on a general line: its condition, inverted by its entry (R172); none for an input
and while RESET_N is low (R171, R175). -/
def State.genLevel (s : State) (k : GenId) : Option Bool :=
  let e := Bank.at' s.lineTable k
  if s.resetLow then none else (s.lineCondition e).map fun b => b != e.invert

/-- BRKn is high while the permission of axis n's state is on and RESET_N is not low (R99, R165). -/
def State.brkLevel (s : State) (n : AxisId) : Bool := !s.resetLow && (s.ctx n).state.permission

/-- The levels the outputs stand at by the state of the blocks that own their meaning. -/
def State.outputLevels (s : State) : Outputs where
  brk := Bank.tabulate 8 s.brkLevel
  clearOut := s.clearOutLevel
  gl := Bank.tabulate 6 s.genLevel

/-- The line block drives every output at the level its owner's state gives; every command ends with it
(R157, R165, R172). -/
def State.drive (s : State) : State := { s with outputs := s.outputLevels }

/-! ## How a command ends -/

/-- The outcome of a command that acts while the part is out of reset. While RESET_N is low nothing acts
(R175). -/
def act (f : State → State) (s : State) : Host.Outcome State Fault Refusal :=
  .next (if s.resetLow then s else (f s).drive)

end Sys2Proof.Machine
end

