-- ==== Sys2Proof/Machine/Faults.lean ====
section
/-! DEFINITION. Fault causes on an axis: recording (R112), what a cause does by state (R113), takeover of
the rig (R114), escalation (R115), the latching of AXIS_FAULT and RIG_FAULT (R116), causes found by one
judgement (R135). -/

namespace Sys2Proof.Machine

/-- A context with a cause recorded: as the first cause with the step number and position as they stand,
or in the later-cause set (R112). -/
def Ctx.record (c : Cause) (gseq : Byte) (x : Ctx) : Ctx :=
  match x.fault with
  | none => { x with fault := some { cause := c, step := gseq, position := x.p } }
  | some _ => { x with later := laterAdd x.later c }

/-- A context with its fault record cleared (R103, R107, R122). -/
def Ctx.clearFaults (x : Ctx) : Ctx := { x with fault := none, later := 0 }

/-- What a cause raised in ARMED does by the axis's state and fault record (R113). -/
inductive FaultRow where
  /-- The axis enters STOPPING with ramp kind FAULT, or its NORMAL ramp becomes FAULT. -/
  | stop
  /-- The axis returns to LOCKED (R110). -/
  | lock
  /-- A second failure (R115). -/
  | escalate
  /-- Recorded only. -/
  | recordOnly
deriving DecidableEq, Repr

/-- The row of R113 for a context. -/
def Ctx.faultRow (x : Ctx) : FaultRow :=
  match x.state with
  | .follow | .recovering | .stopping .normal => .stop
  | .holding _ => if x.fault.isNone then .stop else .escalate
  | .releasing _ _ => .lock
  | .stopping .fault | .dwelling | .parking => .escalate
  | .offline | .standby | .locked => .recordOnly

/-- The axis is RECOVERING or RELEASING toward recovery, where EOT has no effect (R123). -/
def AxisState.recoveringOrToward : AxisState → Bool
  | .recovering | .releasing .recovering _ => true
  | _ => false

/-- A judgement in progress: the state so far and the axes it has stopped, locked or taken over (R135). -/
structure Judging where
  st : State
  touched : List AxisId

/-- The state an axis enters by an acting row. -/
def FaultRow.target : FaultRow → Option AxisState
  | .stop => some (.stopping .fault)
  | .lock => some .locked
  | .escalate | .recordOnly => none

/-- One other member of the rig is taken over with RIG_MEMBER (R114): the cause is recorded; a member in
an acting row changes its state and latches AXIS_FAULT (R116). -/
def State.takeOverMember (m : AxisId) (s : State) : State :=
  let x := s.ctx m
  if x.state = .offline then s
  else
    let y := x.record .rigMember s.engine.gseq
    match x.faultRow.target with
    | none => s.setCtx m y
    | some st => (s.changeCtx m { y with state := st }).latchEvent (.axisFault m)

/-- Every other member of the axis's rig is taken over, in list order (R114). -/
def State.takeOver (n : AxisId) (s : State) : State :=
  match s.rigOf n with
  | none => s
  | some r => ((s.rig r).members.filter (· ≠ n)).foldl (fun st m => st.takeOverMember m) s

/-- The events of a cause that acts: AXIS_FAULT, and RIG_FAULT for a member of a rig in use (R116). -/
def State.latchFault (n : AxisId) (s : State) : State :=
  let s1 := s.latchEvent (.axisFault n)
  match s.rigOf n with
  | none => s1
  | some r => s1.latchEvent (.rigFault r)

/-- The axes a cause that acts by a row of R113 other than escalation reaches: the axis and, in a rig,
every other member. -/
def State.reach (s : State) (n : AxisId) : List AxisId :=
  match s.rigOf n with
  | none => [n]
  | some r => n :: (s.rig r).members

/-- Raise a fault cause on an axis within a judgement that began with the contexts `before` (R112 to R116,
R123, R135). -/
def Judging.raise (before : Vector Ctx 8) (n : AxisId) (c : Cause) (j : Judging) : Judging :=
  let b := Bank.at' before n
  if b.state = .offline then j
  else if c = .eot ∧ b.state.recoveringOrToward then j
  else
    let s := j.st
    let y := (s.ctx n).record c s.engine.gseq
    if s.governor.state ≠ .armed ∨ n ∈ j.touched then { j with st := s.setCtx n y }
    else
      match b.faultRow with
      | .recordOnly => { j with st := s.setCtx n y }
      | .escalate => { j with st := ((s.setCtx n y).latchFault n).joinCause .escalation }
      | .stop =>
        { st := ((s.changeCtx n { y with state := .stopping .fault }).latchFault n).takeOver n
          touched := s.reach n ++ j.touched }
      | .lock =>
        { st := ((s.changeCtx n { y with state := .locked }).latchFault n).takeOver n
          touched := s.reach n ++ j.touched }

/-- Raise a cause that is not raised again while the axis's fault record holds it (R135). -/
def Judging.raiseOnce (before : Vector Ctx 8) (n : AxisId) (c : Cause) (j : Judging) : Judging :=
  if (j.st.ctx n).holds c then j else j.raise before n c

/-- A judgement begins. -/
def State.judging (s : State) : Judging := { st := s, touched := [] }

/-- A cause raised by a judgement of its own (R164, R167). -/
def State.raiseAlone (n : AxisId) (c : Cause) (s : State) : State := (s.judging.raise s.axes n c).st

/-- A cause raised by a judgement of its own, unless the record holds it (R140, R135). -/
def State.raiseAloneOnce (n : AxisId) (c : Cause) (s : State) : State :=
  (s.judging.raiseOnce s.axes n c).st

end Sys2Proof.Machine
end

