-- ==== Sys2Proof/Machine/Router.lean ====
section
/-! DEFINITION. The router and the transmitters: the judgement of head frames (R25 to R30), the transmit
queues and the arbiters that choose what a free transmitter starts (R19, R35 to R41), the work arbiter
of the step engine (R55). -/

namespace Sys2Proof.Machine

/-! ## Transmitters -/

/-- The frame U's arbiter chooses, and the state with it taken from its queue (R37). -/
def State.nextOnU (s : State) : Option (Frame × State) :=
  match s.queues.status, s.queues.responses, s.queues.forward with
  | some f, _, _ => some (f, { s with queues := { s.queues with status := none } })
  | none, f :: rest, _ => some (f, { s with queues := { s.queues with responses := rest } })
  | none, [], f :: rest => some (f, { s with queues := { s.queues with forward := rest } })
  | none, [], [] => none

/-- The frame a drive port's arbiter chooses for the branch mapped to it (R39). -/
def State.nextOnBranch (s : State) (b : BranchId) : Option (Frame × State) :=
  let q := s.branch b
  match q.command, q.passthrough with
  | some f, _ => some (f, s.setBranch b { q with command := none })
  | none, f :: rest => some (f, s.setBranch b { q with passthrough := rest })
  | none, [] => none

/-- The frame the arbiter of a port chooses (R37, R39). -/
def State.nextOn (s : State) (p : PortId) : Option (Frame × State) :=
  match branchOn s.router.mapping p with
  | none => s.nextOnU
  | some b => s.nextOnBranch b

/-- The transmitter of a port with a frame started: its octets back to back, then a gap (R19). -/
def sendingOf (f : Frame) (now : Ticks) : Sending :=
  { octets := f.octets
    freeAt := now + BitVec.ofNat 50 (f.octets.length * Config.charTicks + Config.gapTicks) }

/-- A free transmitter starts the frame its arbiter chooses, if there is one (R19). -/
def State.startTx (p : PortId) (s : State) : State :=
  match (s.port p).tx with
  | some _ => s
  | none =>
    match s.nextOn p with
    | none => s
    | some (f, s1) => s1.setTx p (some (sendingOf f s.clock))

/-! ## Placing frames into transmit queues -/

/-- A response at the tail of U's response FIFO (R36, R179). -/
def State.placeResponse (f : Frame) (s : State) : State :=
  State.startTx .u { s with queues := { s.queues with responses := s.queues.responses ++ [f] } }

/-- A frame for the forward FIFO: placed at its tail, or dropped when it holds four (R30). -/
def State.placeForward (f : Frame) (s : State) : State :=
  if s.queues.forward.length < Config.fifoDepth then
    State.startTx .u { s with queues := { s.queues with forward := s.queues.forward ++ [f] } }
  else s.bump .fwdDrop

/-- A frame for a branch's passthrough FIFO: placed at its tail in SAFE while it holds fewer than four,
else dropped as PASS_BLOCKED (R27). -/
def State.placePassthrough (b : BranchId) (f : Frame) (s : State) : State :=
  let q := s.branch b
  if s.governor.state = .safe ∧ q.passthrough.length < Config.fifoDepth then
    (s.setBranch b { q with passthrough := q.passthrough ++ [f] }).startTx (portOf s.router.mapping b)
  else s.bump .passBlocked

/-- A command frame into a branch's command slot; an unsent one is replaced, counted and latched as LATE
(R38). The transmitters judge their queues when all frames of the completion are placed (R59). -/
def State.placeCommand (b : BranchId) (f : Frame) (s : State) : State :=
  let q := s.branch b
  let s1 := match q.command with
    | none => s
    | some _ => (s.latchEvent (.late b)).bump (.late b)
  s1.setBranch b { q with command := some f }

/-- A status frame into U's status slot; an unsent one is replaced without a count (R35). -/
def State.placeStatus (f : Frame) (s : State) : State :=
  { s with queues := { s.queues with status := some f } }

/-- Entry into ARMED from SAFE empties both passthrough FIFOs, each frame counted (R28). -/
def State.emptyPassthrough (b : BranchId) (s : State) : State :=
  let q := s.branch b
  (q.passthrough.foldl (fun st _ => st.bump .passBlocked) s).setBranch b { q with passthrough := [] }

/-! ## Judging head frames -/

/-- What the router makes of a head frame (R25). -/
inductive Verdict where
  | engine
  | passthrough (b : BranchId)
  | forward
  | unrouted
deriving DecidableEq, Repr

/-- The axis entry that carries a drive address (R26): the address is not 0, whether or not the entry is
enabled. -/
def State.carrier (s : State) (addr : Nat) : Option AxisId :=
  allAxes.find? fun n => (s.entry n).drive != 0 && (s.entry n).drive == addr

/-- The judgement of a head frame on U (R26). -/
def State.judgeU (s : State) (f : Frame) : Verdict :=
  if f.addr = s.station then
    if f.kind = kindSetpoint ∨ f.kind = kindRequest then .engine else .unrouted
  else
    match s.carrier f.addr.toNat with
    | some n => .passthrough (s.entry n).branch
    | none => .unrouted

/-- The judgement of a head frame on a drive port (R29). -/
def State.judgeDrive (s : State) (f : Frame) : Verdict :=
  if f.addr = s.station then
    if f.kind = kindReport then .engine else .unrouted
  else if f.addr = addrConsole then .forward
  else .unrouted

/-- The judgement of a head frame on a port. -/
def State.judgeHead (s : State) (p : PortId) (f : Frame) : Verdict :=
  match p with
  | .u => s.judgeU f
  | .da | .db => s.judgeDrive f

/-- What becomes of a frame that leaves the FIFO at its judgement (R27, R30). -/
def State.dispose (v : Verdict) (f : Frame) (s : State) : State :=
  match v with
  | .engine => s
  | .passthrough b => s.placePassthrough b f
  | .forward => s.placeForward f
  | .unrouted => s.bump .unrouted

/-- Judge the frames of a FIFO from its head on: engine work stays and stops the judging, every other
frame leaves at its judgement (R25). -/
def routeFrames (p : PortId) : List Received → State → List Received × State
  | [], s => ([], s)
  | r :: rest, s =>
    if s.judgeHead p r.frame = .engine then (r :: rest, s)
    else routeFrames p rest (s.dispose (s.judgeHead p r.frame) r.frame)

/-- The router judges the head of a port's receive FIFO, and each frame that then becomes the head (R25). -/
def State.route (p : PortId) (s : State) : State :=
  let (kept, s1) := routeFrames p (s.port p).fifo s
  s1.setFifo p kept

/-! ## The work arbiter (R55) -/

/-- A piece of work for the step engine. -/
inductive Work where
  | notice (n : Notice)
  | step
  | console (r : Received)
  /-- A drive's frame at the head of a port's FIFO, and the branch to offer next time. -/
  | drive (p : PortId) (r : Received) (next : BranchId)
deriving DecidableEq, Repr

/-- The engine-bound head of a port's receive FIFO. -/
def State.engineHead (s : State) (p : PortId) : Option Received :=
  match (s.port p).fifo with
  | [] => none
  | r :: _ => if s.judgeHead p r.frame = .engine then some r else none

/-- The drive work the arbiter would take: the offered branch's head, else the other's (R55). -/
def State.driveWork (s : State) : Option Work :=
  let b := s.engine.nextBranch
  let p := portOf s.router.mapping b
  let q := portOf s.router.mapping (otherBranch b)
  match s.engineHead p with
  | some r => some (.drive p r (otherBranch b))
  | none => (s.engineHead q).map fun r => .drive q r b

/-- The piece of work the arbiter chooses when the engine is free: the oldest notice, the due step, the
console's frame, the drives' frames in turn (R55). None while a step is in flight (R56). -/
def State.arbiter (s : State) : Option Work :=
  match s.engine.inFlight with
  | some _ => none
  | none =>
    match s.engine.notices with
    | n :: _ => some (.notice n)
    | [] =>
      if s.engine.due then some .step
      else
        match s.engineHead .u with
        | some r => some (.console r)
        | none => s.driveWork

/-- The state with the head of a port's receive FIFO removed (R18, R55). -/
def State.dropHead (p : PortId) (s : State) : State := s.setFifo p (s.port p).fifo.tail

end Sys2Proof.Machine
end

