-- ==== Sys2Proof/Machine/Shaper.lean ====
section
/-! DEFINITION. Line shaping (R78 to R97): the run-out distance, the six stages in FOLLOW, PARKING and
RECOVERING, the rig fraction, the stop ramp. The arithmetic is exact, over whole numbers (R1). -/

namespace Sys2Proof.Machine

/-- A value clamped into a range: the nearer end when outside (R1). -/
def clampTo (lo hi x : Int) : Int := if x < lo then lo else if hi < x then hi else x

/-- The run-out distance of a speed at a deceleration (R79). -/
def runOut (s d : Nat) : Nat := s / d * s - d * (s / d * (s / d + 1)) / 2

/-- What the shaper leaves in the context (R86, R87). -/
structure Shaped where
  p : Int
  v : Int
  t : Int
  clamped : Bool
  scaled : Bool
  lookahead : Bool
deriving DecidableEq, Repr

/-- Stage 3 for an axis alone: the desired motion clamped into the speed limit (R81, R90, R92). -/
def limitAlone (limit : Nat) (r : Int) : Int := clampTo (-limit) limit r

/-- The member fraction of a desired motion against a limit (R82). -/
def memberFraction (limit : Nat) (r : Int) : Nat :=
  if r.natAbs ≤ limit then Config.wholeFraction else Config.wholeFraction * limit / r.natAbs

/-- Stage 3 for a member of a proportional rig: the desired motion times the fraction, truncated toward
zero (R83). -/
def limitByFraction (f : Nat) (r : Int) : Int := Int.tdiv (r * f) Config.wholeFraction

/-- Stage 4: the asked speed clamped into the rate bounds of the present velocity (R84). -/
def rateLimit (amax dmax : Nat) (v rs : Int) : Int :=
  if 0 < v then clampTo (v - dmax) (v + amax) rs
  else if v < 0 then clampTo (v - amax) (v + dmax) rs
  else clampTo (-amax) amax rs

/-- Stage 5: the stop reach against the bound above and the bound below (R85). Answers the velocity and
whether the stop reach bites. -/
def stopReach (dmax : Nat) (p v c above below : Int) : Int × Bool :=
  if 0 < c then
    if above < p + c + runOut c.toNat dmax then (max 0 (v - dmax), true) else (c, false)
  else if c < 0 then
    if p + c - runOut (-c).toNat dmax < below then (min 0 (v + dmax), true) else (c, false)
  else (c, false)

/-- Stages 4 to 6 from the asked speed, the target and the bounds away from the target (R84 to R86). -/
def finishShape (e : AxisEntry) (p v target above below rs : Int) (clamped scaled : Bool) : Shaped :=
  let c := rateLimit e.amax e.dmax v rs
  let (w, bit) := stopReach e.dmax p v c above below
  { p := p + w, v := w, t := target, clamped := clamped, scaled := scaled, lookahead := bit }

/-- The bound above: the target when it is at or above the line, else hi (R85). -/
def boundAbove (p target hi : Int) : Int := if p ≤ target then target else hi

/-- The bound below: the target when it is at or below the line, else lo (R85). -/
def boundBelow (p target lo : Int) : Int := if target ≤ p then target else lo

/-- The clamped target of an axis in FOLLOW (R80). -/
def clampedTarget (e : AxisEntry) (t : Int) : Int := clampTo e.lo e.hi t

/-- Stage 3: the rig fraction of a proportional rig when there is one, else the axis alone
(R81, R83, R90). -/
def limitMotion (fraction : Option Nat) (limit : Nat) (r : Int) : Int :=
  match fraction with
  | some f => limitByFraction f r
  | none => limitAlone limit r

/-- SCALED is set when a rig fraction below one whole applies (R83). -/
def scaledBy (fraction : Option Nat) : Bool :=
  match fraction with
  | some f => f < Config.wholeFraction
  | none => false

/-- The shaper toward a target that lies inside the envelope: FOLLOW with vmax and the clamped target,
PARKING with crawl and park (R80 to R86, R90). -/
def shapeToward (e : AxisEntry) (limit : Nat) (fraction : Option Nat) (p v target : Int) (clamped : Bool) :
    Shaped :=
  finishShape e p v target (boundAbove p target e.hi) (boundBelow p target e.lo)
    (limitMotion fraction limit (target - p)) clamped (scaledBy fraction)

/-- The shaper in FOLLOW (R80 to R87). -/
def shapeFollow (e : AxisEntry) (fraction : Option Nat) (x : Ctx) : Shaped :=
  shapeToward e e.vmax fraction x.p x.v (clampedTarget e x.t) (x.t < e.lo || (e.hi : Int) < x.t)

/-- The park position; the position itself where a table holds none, which R71 excludes (log 20). -/
def parkTarget (e : AxisEntry) (p : Int) : Int :=
  match e.park with
  | some k => k
  | none => p

/-- The shaper in PARKING (R90). -/
def shapePark (e : AxisEntry) (fraction : Option Nat) (x : Ctx) : Shaped :=
  shapeToward e e.crawl fraction x.p x.v (parkTarget e x.p) false

/-- The envelope bound on the side where a recovering line stands (R92); a line inside the envelope, which
R122 excludes, is given lo (log 20). -/
def recoverBound (e : AxisEntry) (p : Int) : Int := if (e.hi : Int) ≤ p then e.hi else e.lo

/-- The shaper in RECOVERING (R92). -/
def shapeRecover (e : AxisEntry) (x : Ctx) : Shaped :=
  let b := recoverBound e x.p
  finishShape e x.p x.v b b b (limitAlone e.crawl (b - x.p)) false false

/-- One step of the stop ramp at a deceleration (R94). -/
def rampVelocity (d : Nat) (v : Int) : Int :=
  if 0 < v then max 0 (v - d) else if v < 0 then min 0 (v + d) else 0

/-- The deceleration of a ramp kind (R94). -/
def rampRate (e : AxisEntry) : RampKind → Nat
  | .fault => e.dstop
  | .normal => e.dmax

/-- A context with what the shaper wrote (R86, R87). -/
def Ctx.withShaped (x : Ctx) (r : Shaped) : Ctx :=
  { x with p := r.p, v := r.v, t := r.t, clamped := r.clamped, scaled := r.scaled, lookahead := r.lookahead }

/-- A context with its three status flags cleared (R87). -/
def Ctx.clearFlags (x : Ctx) : Ctx := { x with clamped := false, scaled := false, lookahead := false }

/-- The member fraction of an axis that is in FOLLOW or PARKING, in the shaped state asked for (R82). -/
def State.fractionOf (s : State) (parking : Bool) (n : AxisId) : Option Nat :=
  let x := s.ctx n
  let e := s.entry n
  match x.state, parking with
  | .follow, false => some (memberFraction e.vmax (clampedTarget e x.t - x.p))
  | .parking, true => some (memberFraction e.crawl (parkTarget e x.p - x.p))
  | _, _ => none

/-- The least of a list of fractions; none of an empty list. -/
def leastOf : List Nat → Option Nat
  | [] => none
  | f :: rest => some (rest.foldl min f)

/-- The rig fraction of a rig over its members in one shaped state (R82). -/
def State.rigFraction (s : State) (r : RigId) (parking : Bool) : Option Nat :=
  leastOf ((s.rig r).members.filterMap (s.fractionOf parking))

/-- The fraction that applies to an axis: its rig's, when it is in a proportional rig (R78, R82, R90). -/
def State.fractionFor (s : State) (n : AxisId) (parking : Bool) : Option Nat :=
  match s.rigOf n with
  | none => none
  | some r => if (s.rig r).proportional then s.rigFraction r parking else none

end Sys2Proof.Machine
end

