-- ==== Sys2Proof/Machine/Advance.lean ====
section
/-! DEFINITION. STEP_START: the beginning of a step (R57) and the advance of every axis (R58), with the
cross-detect judgement (R33), report lapse (R137), rig skew (R139), coming to rest (R117, R118), the
dwell (R119, R120) and the arrivals (R91, R93). -/

namespace Sys2Proof.Machine

/-! ## Stage 1: the cross-detect interval (R33, R34) -/

/-- A cleared interval record with a count; an interval is running or not. -/
def Router.fresh (x : Router) (count : Nat) (isOpen : Bool) : Router :=
  { x with crossCount := count, fromDA := false, fromDB := false, notCrossed := false, intervalOpen := isOpen }

/-- The closing interval qualifies: crossed reports from both ports and nothing else (R33). -/
def Router.qualifies (x : Router) : Bool := x.fromDA && x.fromDB && !x.notCrossed

/-- The judgement of the closing interval; the fourth qualifying one in a row flips the mapping and
latches SWAP (R33). Kept only in SAFE with swap_auto set; the interval in progress when that began is
not judged (R34). -/
def State.judgeInterval (s : State) : State :=
  let x := s.router
  if s.governor.state = .safe ∧ s.globals.swapAuto then
    if x.intervalOpen && x.qualifies then
      if x.crossCount + 1 = 4 then
        State.latchEvent .swap { s with router := { x.fresh 0 true with mapping := x.mapping.flip } }
      else { s with router := x.fresh (x.crossCount + 1) true }
    else { s with router := x.fresh 0 true }
  else s

/-! ## Stage 3: report lapse (R137) -/

/-- The lapse judgement of one axis (R137). -/
def lapseAxis (before : Vector Ctx 8) (j : Judging) (n : AxisId) : Judging :=
  let x := j.st.ctx n
  if x.state = .offline ∨ x.fresh then j
  else
    let count := min 255 (x.lapse + 1)
    let j1 := { j with st := j.st.setCtx n { x with lapse := count } }
    if j.st.globals.reportLapse ≤ count then j1.raiseOnce before n .reportLost else j1

/-- The lapse stage: every axis in ascending index, as one judgement (R135, R137). -/
def State.lapseStage (s : State) : State := (allAxes.foldl (lapseAxis s.axes) s.judging).st

/-- Every report-fresh flag is cleared (R137). -/
def State.clearFresh (s : State) : State :=
  { s with axes := Bank.mapIdx (fun _ x => { x with fresh := false }) s.axes }

/-! ## Stage 4: rig skew (R139) -/

/-- The following error of a member that counts for the skew of this step start: the member is in FOLLOW,
was fresh at the lapse judgement, and its error carries the GSEQ of the step before this one (R139). -/
def State.skewError (s : State) (fresh : AxisId → Bool) (n : AxisId) : Option Int :=
  let x := s.ctx n
  match x.lastFollow with
  | some f => if x.state = .follow ∧ fresh n ∧ f.gseq = s.engine.gseq - 1 then some f.error else none
  | none => none

/-- The largest of a list less the smallest. -/
def spread : List Int → Int
  | [] => 0
  | e :: rest => rest.foldl max e - rest.foldl min e

/-- The skew of a rig in use whose every member counts; none when the rig is not judged (R139). -/
def State.skewOf (s : State) (fresh : AxisId → Bool) (r : RigId) : Option Int :=
  let errors := (s.rig r).members.filterMap (s.skewError fresh)
  if (s.rig r).inUse ∧ errors.length = (s.rig r).members.length then some (spread errors) else none

/-- The skew judgement of one rig: RIG_SKEW on the lead when the skew exceeds skew_tol (R139). -/
def skewRig (s0 : State) (fresh : AxisId → Bool) (j : Judging) (r : RigId) : Judging :=
  match (s0.rig r).members, s0.skewOf fresh r with
  | lead :: _, some skew =>
    if ((s0.rig r).skewTol : Int) < skew then j.raiseOnce s0.axes lead .rigSkew else j
  | _, _ => j

/-- The skew stage: every rig in ascending index, as one judgement (R135, R139). `fresh` tells which axes
were fresh at the lapse judgement. -/
def State.skewStage (fresh : AxisId → Bool) (s : State) : State :=
  (allRigs.foldl (skewRig s fresh) s.judging).st

/-! ## The advance (R58) -/

/-- The dwell count of a rig after it is run down (R119, R120): none when it is absent or has reached 0. -/
def dwellDown : Option Nat → Option Nat
  | none => none
  | some k => if k ≤ 1 then none else some (k - 1)

/-- The dwell of the axis's rig reaches 0 in this advance (R120). -/
def State.dwellEnds (s : State) (n : AxisId) : Bool :=
  match s.rigOf n with
  | none => false
  | some r =>
    match Bank.at' s.dwell r with
    | none => false
    | some k => k ≤ 1

/-- A FAULT ramp that has come to rest leads to DWELLING (R117): member of a rig in use with profile
STOP_DWELL_PARK, the governor ARMED, inside the envelope. -/
def State.restDwells (s : State) (n : AxisId) (ramp : RampKind) (p : Int) : Bool :=
  match s.rigOf n with
  | none => false
  | some r =>
    ramp == .fault && (s.rig r).profile == .stopDwellPark && s.governor.state == .armed
      && decide (((s.entry n).lo : Int) ≤ p) && decide (p ≤ (s.entry n).hi)

/-- The context of an axis after the advance of a step, from the state as it stands at the start of the
advance (R58, R78, R94, R97, R117 to R121, R123). -/
def State.advanced (s : State) (n : AxisId) : Ctx :=
  let x := s.ctx n
  let e := s.entry n
  match x.state with
  | .offline => x
  | .standby | .locked | .releasing _ _ => x.clearFlags
  | .follow => x.withShaped (shapeFollow e (s.fractionFor n false) x)
  | .parking =>
    let y := x.withShaped (shapePark e (s.fractionFor n true) x)
    if y.p = parkTarget e x.p ∧ y.v = 0 then { y with state := .holding e.settle } else y
  | .recovering =>
    let y := x.withShaped (shapeRecover e x)
    if y.p = recoverBound e x.p ∧ y.v = 0 then { y with state := .holding e.settle } else y
  | .stopping ramp =>
    let v := rampVelocity (rampRate e ramp) x.v
    let y := { x.clearFlags with p := x.p + v, v := v }
    if v = 0 then
      { y with state := if s.restDwells n ramp y.p then .dwelling else .holding e.settle }
    else y
  | .holding k => { x.clearFlags with state := if k ≤ 1 then .locked else .holding (k - 1) }
  | .dwelling =>
    let y := x.clearFlags
    if s.dwellEnds n then
      if s.governor.state = .armed then { y with state := .parking, t := parkTarget e x.p }
      else { y with state := .holding e.settle }
    else y

/-- The clamp of stage 1 bites on an axis in FOLLOW (R80). -/
def State.clampBites (s : State) (n : AxisId) : Bool :=
  let x := s.ctx n
  x.state = .follow && (decide (x.t < (s.entry n).lo) || decide (((s.entry n).hi : Int) < x.t))

/-- One axis is advanced; `s0` is the state at the start of the advance. -/
def advanceAxis (s0 s : State) (n : AxisId) : State :=
  let s1 := s.changeCtx n (s0.advanced n)
  if s0.clampBites n then s1.bump (.targetClamped n) else s1

/-- The dwell count of a rig starts at the end of an advance in which it is absent, some member is in
DWELLING and none in STOPPING (R119). -/
def State.startDwell (s : State) (r : RigId) : Option Nat :=
  let members := (s.rig r).members
  match Bank.at' s.dwell r with
  | some k => some k
  | none =>
    if members.any (fun n => (s.ctx n).state = .dwelling)
        && !(members.any fun n => (s.ctx n).state = .stopping .fault || (s.ctx n).state = .stopping .normal)
    then some (s.rig r).dwell else none

/-- The advance of every axis, the dwell counts run down before it and started after it (R58, R119). -/
def State.advance (s : State) : State :=
  let s1 := allAxes.foldl (advanceAxis s) { s with dwell := Bank.mapIdx (fun _ d => dwellDown d) s.dwell }
  { s1 with dwell := Bank.mapIdx (fun r _ => s1.startDwell r) s1.dwell }

/-! ## The whole beginning -/

/-- The due step is taken: no longer due, in flight with the step source in force, its start time kept
(R51, R56, R57, R59). -/
def State.beginStep (s : State) : State :=
  { s with engine := { s.engine with
      due := false
      inFlight := some (if s.cadence.state = .locked then .setpoint else .timer)
      lastStepStart := s.timeBase } }

/-- GSEQ increases by 1, 255 followed by 0 (R57). -/
def State.nextGseq (s : State) : State := { s with engine := { s.engine with gseq := s.engine.gseq + 1 } }

/-- The beginning of a step in the order of R57, and the advance (R58). -/
def State.startStep (s : State) : State :=
  let s1 := s.beginStep.judgeInterval.nextGseq
  let s2 := s1.lapseStage
  let fresh := fun n => (s2.ctx n).fresh
  ((s2.clearFresh).skewStage fresh).advance

/-- The engine takes the due step when the arbiter chooses it (R55). -/
def State.stepStartEvent (s : State) : State :=
  match s.arbiter with
  | some .step => s.startStep
  | _ => s

/-- STEP_START. -/
def execStepStart (s : State) : Host.Outcome State Fault Refusal := act State.stepStartEvent s

end Sys2Proof.Machine
end

