-- ==== Sys2Proof/Machine/Cadence.lean ====
section
/-! DEFINITION. The cadence monitor and the pace timer (R45 to R53): the judgement of an accepted
setpoint, the loss of lock, the writing of the cadence fields; the commands PACE_TIMER_EXPIRY and
LAPSE_EXPIRY. -/

namespace Sys2Proof.Machine

/-- The state with the cadence monitor replaced. -/
def State.setCadence (c : Cadence) (s : State) : State := { s with cadence := c }

/-- A step becomes due; a step already due stays due (R51). -/
def State.makeDue (s : State) : State := { s with engine := { s.engine with due := true } }

/-- A change of cadence state latches CADENCE and is reported to governor control, whose cadence
condition holds while the cadence is not LOCKED (R50, R149). -/
def State.cadenceChanged (s : State) : State :=
  (s.latchEvent .cadence).reportCondition .cadence (s.cadence.state != .locked)

/-- The interval from the last arrival to this one is in window: it differs from P by no more than W
(R45). -/
def inWindow (g : Globals) (last arrival : Micros) : Bool :=
  g.P ≤ (arrival - last).toNat + g.W && (arrival - last).toNat ≤ g.P + g.W

/-- The lapse deadline of an arrival: L periods after it (R48, R49). -/
def lapseDeadline (g : Globals) (arrival : Micros) : Micros := addMicros arrival (g.L * g.P)

/-- The pace timer with its first expiry one period after the start of the last step taken; when that time
has passed, a step is due at once and the next expiry is one period later still (R52, R53). -/
def State.startPaceFromLastStep (s : State) : State :=
  let first := addMicros s.engine.lastStepStart s.globals.P
  if reachedMicros first s.timeBase then
    (s.makeDue).setCadence { s.cadence with paceNext := some (addMicros first s.globals.P) }
  else s.setCadence { s.cadence with paceNext := some first }

/-- An accepted setpoint in UNLOCKED: to LOCKING with no interval judged (R46). -/
def State.acceptUnlocked (arrival : Micros) (s : State) : State :=
  (s.setCadence { s.cadence with state := .locking, lockCount := 0, lastArrival := some arrival }).cadenceChanged

/-- An accepted setpoint in LOCKING (R47). -/
def State.acceptLocking (arrival last : Micros) (s : State) : State :=
  let c := { s.cadence with lastArrival := some arrival }
  if inWindow s.globals last arrival then
    if s.globals.nLock ≤ c.lockCount + 1 then
      ((s.setCadence { c with
          state := .locked, lockCount := c.lockCount + 1, missCount := 0,
          lapse := some (lapseDeadline s.globals arrival), paceNext := none }).makeDue).cadenceChanged
    else s.setCadence { c with lockCount := c.lockCount + 1 }
  else s.setCadence { c with lockCount := 0 }

/-- An accepted setpoint in LOCKED (R48). -/
def State.acceptLocked (arrival last : Micros) (s : State) : State :=
  let c := { s.cadence with lastArrival := some arrival }
  let deadline := some (lapseDeadline s.globals arrival)
  if inWindow s.globals last arrival then
    (s.setCadence { c with missCount := 0, lapse := deadline }).makeDue
  else
    let s1 := s.bump .jitter
    if s.globals.J ≤ c.missCount + 1 then
      ((s1.setCadence { c with
          state := .locking, lockCount := 0, missCount := c.missCount + 1, lapse := none
          }).startPaceFromLastStep).cadenceChanged
    else (s1.setCadence { c with missCount := c.missCount + 1, lapse := deadline }).makeDue

/-- The cadence monitor judges an accepted setpoint by its arrival time (R45 to R48). A last arrival is
held in LOCKING and LOCKED; where none is held the frame's own stands in (log 20). -/
def State.judgeCadence (arrival : Micros) (s : State) : State :=
  let last := s.cadence.lastArrival.getD arrival
  match s.cadence.state with
  | .unlocked => s.acceptUnlocked arrival
  | .locking => s.acceptLocking arrival last
  | .locked => s.acceptLocked arrival last

/-- A write that changes P or W: UNLOCKED with the counts at 0 and no lapse deadline, the pace timer
restarted on the new period (R53). The new record already stands in the state. -/
def State.rewriteCadence (s : State) : State :=
  let s1 := (s.setCadence { s.cadence with
    state := .unlocked, lockCount := 0, missCount := 0, lapse := none }).startPaceFromLastStep
  if s.cadence.state = .unlocked then s1 else s1.cadenceChanged

/-- The pace timer's expiry (R52). -/
def State.paceExpiry (s : State) : State :=
  match s.cadence.paceNext with
  | none => s
  | some t =>
    ((s.advanceTo (ticksOf t)).makeDue).setCadence
      { s.cadence with paceNext := some (addMicros t s.globals.P) }

/-- The lapse expiry (R49). -/
def State.lapseExpiry (s : State) : State :=
  match s.cadence.state, s.cadence.lapse with
  | .locked, some t =>
    (((s.advanceTo (ticksOf t)).makeDue).setCadence { s.cadence with
      state := .unlocked, lockCount := 0, missCount := 0, lapse := none,
      paceNext := some (addMicros t s.globals.P) }).cadenceChanged
  | _, _ => s

/-- PACE_TIMER_EXPIRY. A stopped timer does not expire (R52). -/
def execPaceTimerExpiry (s : State) : Host.Outcome State Fault Refusal := act State.paceExpiry s

/-- LAPSE_EXPIRY. The deadline is held only in LOCKED (R49). -/
def execLapseExpiry (s : State) : Host.Outcome State Fault Refusal := act State.lapseExpiry s

end Sys2Proof.Machine
end

