-- ==== Sys2Proof/Machine/Completion.lean ====
section
/-! DEFINITION. STEP_COMPLETION (R56, R59): the history rings (R130), the command frames (R100, R191), the
status frame (R186, R187, R192), MOTION_OUT (R172). -/

namespace Sys2Proof.Machine

/-- A ring with a pair pushed; the ninth drops the oldest (R59, R130). -/
def pushRing (ring : List RingPair) (x : RingPair) : List RingPair :=
  let grown := ring ++ [x]
  grown.drop (grown.length - Config.ringDepth)

/-- Every non-OFFLINE axis pushes the step's GSEQ and its p (R59, R130). -/
def State.pushHistory (s : State) : State :=
  { s with axes := Bank.mapIdx (fun _ x =>
      if x.state = .offline then x
      else { x with ring := pushRing x.ring { step := s.engine.gseq, p := x.p } }) s.axes }

/-- The axes that have an entry in a command or status frame: those not OFFLINE, in ascending index. -/
def State.liveAxes (s : State) : List AxisId := allAxes.filter fun n => (s.ctx n).state ≠ .offline

/-- The command entry of an axis (R100, R191). -/
def State.commandEntry (s : State) (n : AxisId) : List Byte :=
  let x := s.ctx n
  put8 (s.entry n).drive ++ put8 x.state.code ++ put8 (codeBool x.state.permission) ++ putS32 x.p ++ putS32 x.v

/-- The axes of a branch's command frame (R59). -/
def State.branchAxes (s : State) (b : BranchId) : List AxisId :=
  s.liveAxes.filter fun n => (s.entry n).branch = b

/-- The command frame of a branch (R59, R191). -/
def State.commandFrame (s : State) (b : BranchId) : Frame where
  addr := addrAllDrives
  kind := kindCommand
  seq := s.engine.gseq
  payload := put8 (s.branchAxes b).length ++ (s.branchAxes b).flatMap s.commandEntry

/-- The octet of an optional fault record's cause: 0 when absent (R192). -/
def faultOctets : Option FaultRecord → List Byte
  | none => put8 0 ++ put8 0 ++ putS32 0
  | some f => put8 f.cause.code ++ [f.step] ++ putS32 f.position

/-- The status flags of a context in one octet (R192). -/
def Ctx.flagOctet (x : Ctx) : Nat := codeBool x.clamped + 2 * codeBool x.scaled + 4 * codeBool x.lookahead

/-- The status entry of an axis (R187, R192). -/
def State.statusEntry (s : State) (n : AxisId) : List Byte :=
  let x := s.ctx n
  put8 n.val ++ put8 x.state.code ++ putS32 x.p ++ putS32 x.v ++ putS32 x.t ++ put8 x.flagOctet
    ++ faultOctets x.fault ++ [x.later]

/-- The octet of the cadence state and the step source (R192). -/
def cadenceOctet (c : CadenceState) (src : StepSource) : Nat :=
  c.code + 4 * (match src with
    | .timer => 0
    | .setpoint => 1)

/-- The status frame of a step with its source (R186, R192). -/
def State.statusFrame (s : State) (src : StepSource) : Frame where
  addr := addrConsole
  kind := kindStatus
  seq := s.engine.gseq
  payload := put8 s.governor.state.code ++ [s.governor.causes] ++ put8 (cadenceOctet s.cadence.state src)
    ++ [s.engine.gseq] ++ put8 s.router.mapping.code ++ put24 s.latch.toNat ++ put8 s.liveAxes.length
    ++ s.liveAxes.flatMap s.statusEntry

/-- Some member of a rig has a shaped velocity other than 0 (R172). -/
def State.rigMoves (s : State) (r : RigId) : Bool := (s.rig r).members.any fun n => (s.ctx n).v != 0

/-- MOTION_OUT is judged at each step completion (R172). -/
def State.judgeMotion (s : State) : State := { s with motion := Bank.tabulate 4 s.rigMoves }

/-- The step is no longer in flight: the engine is free (R59). -/
def State.endStep (s : State) : State := { s with engine := { s.engine with inFlight := none } }

/-- The completion of a step in the order of R59; then each transmitter judges its queues (R19). -/
def State.completeStep (src : StepSource) (s : State) : State :=
  let s1 := s.pushHistory
  let s2 := s1.placeCommand .b0 (s1.commandFrame .b0)
  let s3 := s2.placeCommand .b1 (s2.commandFrame .b1)
  let s4 := (s3.placeStatus (s3.statusFrame src)).judgeMotion.endStep
  ((s4.startTx .da).startTx .db).startTx .u

/-- The time from now to the completion: what is asked, but never past 150 µs from the step's start (R56). -/
def State.completionWait (wait : Nat) (s : State) : Nat :=
  let last := ticksOf s.engine.lastStepStart + BitVec.ofNat 50 Config.stepTicks
  if reached last s.clock then 0 else min wait (last - s.clock).toNat

/-- The step in flight completes (R56, R59). -/
def State.stepCompletionEvent (wait : Nat) (s : State) : State :=
  match s.engine.inFlight with
  | none => s
  | some src => (s.elapse (s.completionWait wait)).completeStep src

/-- STEP_COMPLETION. -/
def execStepCompletion (wait : Nat) (s : State) : Host.Outcome State Fault Refusal :=
  act (State.stepCompletionEvent wait) s

end Sys2Proof.Machine
end

