-- ==== Sys2Proof/Machine/Frames.lean ====
section
/-! DEFINITION. The frames the step engine takes from the link other than requests: TAKE_SETPOINT (R42 to
R48) and TAKE_REPORT (R32, R33, R126 to R136). -/

namespace Sys2Proof.Machine

/-! ## Setpoints -/

/-- The entries of a setpoint payload with its count: axis index and target (R191). -/
def setpointEntries (o : List Byte) : List (Nat × Int) :=
  (List.range (u8 o 0)).map fun k => (u8 o (1 + 5 * k), s32 o (2 + 5 * k))

/-- The form check of a setpoint payload (R42). -/
def setpointForm (o : List Byte) : Bool :=
  o.length != 0 && 1 ≤ u8 o 0 && u8 o 0 ≤ 8 && o.length == 1 + 5 * u8 o 0
    && (setpointEntries o).all (fun e => e.1 ≤ 7)
    && decide ((setpointEntries o).map Prod.fst).Nodup

/-- One entry of an accepted setpoint: the target of an axis in FOLLOW is replaced, any other entry is
ignored (R44). -/
def State.storeTarget (e : Nat × Int) (s : State) : State :=
  let n := axisIdOf e.1
  let x := s.ctx n
  if x.state = .follow then s.setCtx n { x with t := e.2 } else s

/-- An accepted setpoint frame: its SEQ becomes the last accepted one and may count a gap, its targets are
stored in payload order, its arrival is judged for cadence (R43, R44, R45). -/
def State.acceptSetpoint (r : Received) (s : State) : State :=
  let gap := match s.engine.lastSeq with
    | none => false
    | some last => r.frame.seq != last + 1
  let s1 := if gap then s.bump .seqGap else s
  let s2 := { s1 with engine := { s1.engine with lastSeq := some r.frame.seq } }
  ((setpointEntries r.frame.payload).foldl (fun st e => st.storeTarget e) s2).judgeCadence r.arrival

/-- A setpoint frame is judged by its form and its SEQ (R42, R43). -/
def State.judgeSetpoint (r : Received) (s : State) : State :=
  if setpointForm r.frame.payload then
    if s.engine.lastSeq = some r.frame.seq then s.bump .duplicate else s.acceptSetpoint r
  else s.bump .badSetpoint

/-- The engine takes the setpoint frame the arbiter chooses; it leaves the FIFO, and the router judges the
next head (R18, R25, R55; log 5). -/
def State.takeSetpoint (s : State) : State :=
  match s.arbiter with
  | some (.console r) =>
    if r.frame.kind = kindSetpoint then ((s.dropHead .u).judgeSetpoint r).route .u else s
  | _ => s

/-! ## Reports -/

/-- The enabled axis whose entry carries a report's drive address (R32). -/
def State.reporter (s : State) (drive : Nat) : Option AxisId :=
  allAxes.find? fun n => (s.entry n).enabled && (s.entry n).drive == drive

/-- The cross-detect record is kept only in SAFE with swap_auto set, over a running interval (R33, R34). -/
def State.keepsRecord (s : State) : Bool :=
  s.governor.state == .safe && s.globals.swapAuto && s.router.intervalOpen

/-- A crossed report: discarded, CROSSED counted, its port recorded (R32, R33). -/
def State.crossedReport (p : PortId) (s : State) : State :=
  let s1 := s.bump .crossed
  if s.keepsRecord then
    match p with
    | .da => { s1 with router := { s1.router with fromDA := true } }
    | .db => { s1 with router := { s1.router with fromDB := true } }
    | .u => s1
  else s1

/-- An unmatched report: not-crossed recorded, UNROUTED counted (R33, R126). -/
def State.unmatchedReport (s : State) : State :=
  let s1 := s.bump .unrouted
  if s.keepsRecord then { s1 with router := { s1.router with notCrossed := true } } else s1

/-- A straight report: not-crossed recorded and the cross-detect count set to 0 (R33). -/
def State.straightRecord (s : State) : State :=
  if s.keepsRecord then { s with router := { s.router with notCrossed := true, crossCount := 0 } } else s

/-- The report a payload carries (R191). -/
def reportOf (o : List Byte) : Report where
  position := s32 o 1
  ready := (o.getD 5 0).getLsbD 0
  fault := (o.getD 5 0).getLsbD 1

/-- A context with a report taken (R128); in STANDBY the position is tracked (R129). -/
def Ctx.withReport (x : Ctx) (r : Report) : Ctx :=
  let y := { x with fresh := true, lapse := 0, lastReport := some r }
  if x.state = .standby then { y with p := r.position, v := 0, t := r.position } else y

/-- The drive flags of a report raise DRIVE_FAULT (R134). -/
def Report.bad (r : Report) : Bool := !r.ready || r.fault

/-- Following error is judged in every state with brake permission on except RELEASING (R132). -/
def AxisState.judgesFollowing : AxisState → Bool
  | .follow | .stopping _ | .holding _ | .dwelling | .parking | .recovering => true
  | .offline | .standby | .locked | .releasing _ _ => false

/-- The expected position of a report that echoes a step number, from the ring and the echo delay (R131). -/
def expectedPosition (ring : List RingPair) (echo : Byte) (delay : Nat) : Option Int :=
  (ring.find? fun x => x.step == echo - BitVec.ofNat 8 delay).map RingPair.p

/-- A context with a following error stored with the GSEQ that stands (R132, R136). -/
def Ctx.withError (x : Ctx) (e : Int) (gseq : Byte) : Ctx := { x with lastFollow := some { error := e, gseq := gseq } }

/-- The following error of a report (R131, R132), within the report's judgement; `before` holds the contexts
when it began. -/
def Judging.followingError (before : Vector Ctx 8) (n : AxisId) (echo : Byte) (r : Report) (j : Judging) :
    Judging :=
  let s := j.st
  match expectedPosition (Bank.at' before n).ring echo (s.entry n).echoDelay with
  | none => { j with st := s.bump .stale }
  | some q =>
    let e := r.position - q
    let j1 := { j with st := s.setCtx n ((s.ctx n).withError e s.engine.gseq) }
    if (s.entry n).followTol < e.natAbs then j1.raiseOnce before n .followErr else j1

/-- The drift of a locked axis (R136): stored, and beyond follow_tol BRAKE_SLIP is raised and AXIS_FAULT
latched; judged while ARMED or TRIPPED. -/
def State.brakeSlip (n : AxisId) (r : Report) (s : State) : State :=
  if s.governor.state = .safe then s
  else
    let drift := r.position - (s.ctx n).p
    let s1 := s.setCtx n ((s.ctx n).withError drift s.engine.gseq)
    if (s.entry n).followTol < drift.natAbs then (s1.latchEvent (.axisFault n)).joinCause .brakeSlip else s1

/-- A straight report acts on its axis (R127 to R136). In STANDBY the position is set before the drive flags are
judged, so a DRIVE_FAULT is recorded at the position just reported (DESIGN CHOICE, log 31). -/
def State.reportOn (n : AxisId) (echo : Byte) (r : Report) (s : State) : State :=
  let st := (s.ctx n).state
  if st = .offline then s
  else
    let s1 := s.setCtx n ((s.ctx n).withReport r)
    let j := if r.bad then s1.judging.raiseOnce s1.axes n .driveFault else s1.judging
    if st.judgesFollowing then (j.followingError s1.axes n echo r).st
    else if st = .locked then j.st.brakeSlip n r
    else j.st

/-- A report taken from a port is judged: its length (R126), then straight, crossed or unmatched (R32). -/
def State.judgeReport (p : PortId) (f : Frame) (s : State) : State :=
  if f.payload.length = 6 then
    match s.reporter (u8 f.payload 0) with
    | none => s.unmatchedReport
    | some n =>
      if branchOn s.router.mapping p = some (s.entry n).branch then
        s.straightRecord.reportOn n f.seq (reportOf f.payload)
      else s.crossedReport p
  else s.bump .unrouted

/-- The engine takes the report the arbiter chooses; the branch to offer next is remembered, the router
judges the port's next head (R25, R55). -/
def State.takeReport (s : State) : State :=
  match s.arbiter with
  | some (.drive p r next) =>
    let s1 := s.dropHead p
    let s2 := { s1 with engine := { s1.engine with nextBranch := next } }
    (s2.judgeReport p r.frame).route p
  | _ => s

/-- TAKE_SETPOINT. -/
def execTakeSetpoint (s : State) : Host.Outcome State Fault Refusal := act State.takeSetpoint s

/-- TAKE_REPORT. -/
def execTakeReport (s : State) : Host.Outcome State Fault Refusal := act State.takeReport s

end Sys2Proof.Machine
end

