-- ==== Sys2Proof/Machine/Request.lean ====
section
/-! DEFINITION. The request and response exchange (R177 to R181): which row of the table a request frame
belongs to, the dropping of a request without room, the response frame; and the command UNKNOWN_REQUEST. -/

namespace Sys2Proof.Machine

/-- The requests of R178, and a request that fails its form. -/
inductive ReqKind where
  | readTable | writeTable | arm | disarm | stopAll | resetTrip | release | lock | recover | ackEvents
  | readLines | readCounters | portReset | unknown
deriving DecidableEq, Repr

/-- The request a code names and whether a payload length fits it (R178, R193). -/
def reqOf (code len : Nat) : ReqKind :=
  match code with
  | 1 => if 4 ≤ len then .readTable else .unknown
  | 2 => if 4 ≤ len then .writeTable else .unknown
  | 3 => if len = 1 then .arm else .unknown
  | 4 => if len = 1 then .disarm else .unknown
  | 5 => if len = 1 then .stopAll else .unknown
  | 6 => if len = 1 then .resetTrip else .unknown
  | 7 => if len = 3 then .release else .unknown
  | 8 => if len = 3 then .lock else .unknown
  | 9 => if len = 2 then .recover else .unknown
  | 10 => if len = 4 then .ackEvents else .unknown
  | 11 => if len = 1 then .readLines else .unknown
  | 12 => if len = 3 then .readCounters else .unknown
  | 13 => if len = 2 then .portReset else .unknown
  | _ => .unknown

/-- The request a frame carries (R178). -/
def Frame.request (f : Frame) : ReqKind := reqOf (u8 f.payload 0) f.payload.length

/-- What a request answers: its result and, with OK, its data (R179). -/
structure Reply where
  result : Result
  data : List Byte
deriving DecidableEq, Repr

/-- An answer without data. -/
def reply (r : Result) : Reply := { result := r, data := [] }

/-- The response frame of a request (R179, R194). -/
def responseFrame (f : Frame) (a : Reply) : Frame where
  addr := addrConsole
  kind := kindResponse
  seq := f.seq
  payload := put8 (u8 f.payload 0) ++ put8 a.result.code ++ a.result.details
    ++ (if a.result = .ok then a.data else [])

/-- The engine takes a request frame already removed from the FIFO: dropped unanswered when U's response
FIFO is full (R177), else acted on and answered after its effects (R178, R179). -/
def State.answer (f : Frame) (eff : Frame → State → State × Reply) (s : State) : State :=
  if s.queues.responses.length < Config.responseDepth then
    let (s1, a) := eff f s
    s1.placeResponse (responseFrame f a)
  else (s.latchEvent .mgmtDrop).bump .mgmtDrop

/-- The engine takes the request the arbiter chooses, when it is of this kind; the frame leaves the FIFO,
and the router judges the next head after the request's effects (R25, R55; log 5). -/
def State.takeRequest (k : ReqKind) (eff : Frame → State → State × Reply) (s : State) : State :=
  match s.arbiter with
  | some (.console r) =>
    if r.frame.kind = kindRequest ∧ r.frame.request = k then ((s.dropHead .u).answer r.frame eff).route .u
    else s
  | _ => s

/-- A request judged by a check and, when it passes, carried out by an effect. -/
def judged (check : Frame → State → Result) (effect : Frame → State → State) (f : Frame) (s : State) :
    State × Reply :=
  if check f s = .ok then (effect f s, reply .ok) else (s, reply (check f s))

/-- UNKNOWN_REQUEST: LEN 0, an unknown code or a length that does not fit (R178). -/
def execUnknownRequest (s : State) : Host.Outcome State Fault Refusal :=
  act (State.takeRequest .unknown fun _ s => (s, reply .badRequest)) s

end Sys2Proof.Machine
end

