-- ==== Sys2Proof/Machine/Governor.lean ====
section
/-! DEFINITION. ARM, STOP_ALL, RESET_TRIP and DISARM (R151 to R155, R28, R34, R103, R104). -/

namespace Sys2Proof.Machine

/-- The enabled axes in ascending index. -/
def State.enabledAxes (s : State) : List AxisId := allAxes.filter fun n => (s.entry n).enabled

/-- The last report shows READY set and FAULT clear (R106, R122, R151). -/
def Ctx.driveReady (x : Ctx) : Bool :=
  match x.lastReport with
  | some r => r.ready && !r.fault
  | none => false

/-- Check 6 of ARM on one axis: freshness before the drive flags (R151). -/
def State.armReportCheck (s : State) (n : AxisId) : Option Result :=
  let x := s.ctx n
  if !x.fresh then some (.causeActive .notFresh (some n.val))
  else if !x.driveReady then some (.causeActive .driveFault (some n.val))
  else none

/-- Check 7 of ARM on one axis (R151). -/
def State.armBrakeCheck (s : State) (n : AxisId) : Option Result :=
  if s.senseReleased n then some (.causeActive .brakeReleased (some n.val)) else none

/-- The judgement of ARM in the order of R151. -/
def State.judgeArm (s : State) : Result :=
  if s.governor.state ≠ .safe then .wrongState s.governor.state none
  else if s.cadence.state ≠ .locked then .causeActive .cadence none
  else if s.filtered .stopIn then .causeActive .stopIn none
  else if s.globals.chainUse ∧ !s.filtered .clearIn then .causeActive .chain none
  else if s.armKeyOff then .causeActive .armKey none
  else if s.enabledAxes.isEmpty then .causeActive .noAxis none
  else match s.enabledAxes.findSome? s.armReportCheck with
    | some r => r
    | none => (s.enabledAxes.findSome? s.armBrakeCheck).getD .ok

/-- A STANDBY axis is locked at the position of its last report (R103). -/
def Ctx.lockAtReport (x : Ctx) : Ctx :=
  let p := match x.lastReport with
    | some r => r.position
    | none => x.p
  { x.clearFaults with state := .locked, p := p, v := 0, t := p, ring := [] }

/-- The governor enters ARMED with the set holding the active causes whose flags are set (R144). -/
def State.enterArmed (s : State) : State :=
  { s with governor := { s.governor with state := .armed, causes := s.governor.activeCauses } }

/-- What an accepted ARM does (R28, R34, R103, R152). -/
def State.armEffect (s : State) : State :=
  let s1 := s.enterArmed
  let s2 := { s1 with
    axes := Bank.mapIdx (fun _ (x : Ctx) => if x.state = AxisState.standby then x.lockAtReport else x) s1.axes
    dwell := Bank.all 4 none
    router := s1.router.fresh 0 false }
  (s2.emptyPassthrough .b0).emptyPassthrough .b1

/-- The axes stand LOCKED or OFFLINE; otherwise the state of the first other in ascending index (R154,
R155). -/
def State.firstUnsettled (s : State) : Option AxisState :=
  (allAxes.find? fun n => (s.ctx n).state ≠ .locked ∧ (s.ctx n).state ≠ .offline).map fun n => (s.ctx n).state

/-- The judgement of DISARM (R155). -/
def State.judgeDisarm (s : State) : Result :=
  if s.governor.state = .safe then .wrongState .safe none
  else match s.firstUnsettled with
    | some st => .wrongState s.governor.state (some st)
    | none => .ok

/-- What an accepted DISARM does: SAFE with the set emptied, every LOCKED axis to STANDBY, the rig runtimes
empty (R104, R155). -/
def State.disarmEffect (s : State) : State :=
  { s with
    governor := { s.governor with state := .safe, causes := 0 }
    axes := Bank.mapIdx (fun _ (x : Ctx) => if x.state = AxisState.locked then { x with state := .standby } else x) s.axes
    dwell := Bank.all 4 none }

/-- The judgement of STOP_ALL (R153). -/
def State.judgeStopAll (s : State) : Result :=
  if s.governor.state = .safe then .wrongState .safe none else .ok

/-- The first active cause held, in the order STOP_IN, CHAIN, CADENCE, BRAKE_STUCK (R154). -/
def firstActiveCause (set : BitVec 8) : Option RefusalCode :=
  if causeHeld set .stopIn then some .stopIn
  else if causeHeld set .chain then some .chain
  else if causeHeld set .cadence then some .cadence
  else if causeHeld set .brakeStuck then some .brakeStuck
  else none

/-- The judgement of RESET_TRIP (R154). -/
def State.judgeResetTrip (s : State) : Result :=
  if s.governor.state ≠ .tripped then .wrongState s.governor.state none
  else match firstActiveCause s.governor.causes with
    | some c => .causeActive c none
    | none =>
      match s.firstUnsettled with
      | some st => .wrongState .tripped (some st)
      | none => .ok

/-- ARM. -/
def execArm (s : State) : Host.Outcome State Fault Refusal :=
  act (State.takeRequest .arm (judged (fun _ => State.judgeArm) fun _ => State.armEffect)) s

/-- DISARM. -/
def execDisarm (s : State) : Host.Outcome State Fault Refusal :=
  act (State.takeRequest .disarm (judged (fun _ => State.judgeDisarm) fun _ => State.disarmEffect)) s

/-- STOP_ALL: STOP_REQUEST is raised (R153). -/
def execStopAll (s : State) : Host.Outcome State Fault Refusal :=
  act (State.takeRequest .stopAll (judged (fun _ => State.judgeStopAll) fun _ => State.joinCause .stopRequest)) s

/-- RESET_TRIP: every latched cause is removed and the governor enters ARMED (R154). -/
def execResetTrip (s : State) : Host.Outcome State Fault Refusal :=
  act (State.takeRequest .resetTrip (judged (fun _ => State.judgeResetTrip) fun _ => State.enterArmed)) s

end Sys2Proof.Machine
end

