-- ==== Sys2Proof/Machine/Tables.lean ====
section
/-! DEFINITION. READ_TABLE and WRITE_TABLE (R61 to R77, R170, R173). -/

namespace Sys2Proof.Machine

/-! ## Form (R67) -/

/-- The header of a table request: the table it names, the first index and the count (R193). -/
def headTable (f : Frame) : Option TableId := tableOf (u8 f.payload 1)
def headFirst (f : Frame) : Nat := u8 f.payload 2
def headCount (f : Frame) : Nat := u8 f.payload 3

/-- The payload length R67 asks for: the header, and for a write the entries. -/
def headLen (t : TableId) (count : Nat) (write : Bool) : Nat := if write then 4 + count * t.width else 4

/-- The form checks shared by both table requests (R67). -/
def tableForm (write : Bool) (f : Frame) : Result :=
  match headTable f with
  | none => .badTable
  | some t =>
    let n := headCount f
    if n = 0 ∨ t.most < n ∨ t.entries ≤ headFirst f ∨ t.entries < headFirst f + n then .badIndex
    else if f.payload.length = headLen t n write then .ok
    else .badRequest

/-! ## Reading (R68) -/

/-- A member of a bank at any index; a default beyond its end, which R67 excludes. -/
def bankGet {α : Type} {n : Nat} (v : Vector α n) (d : α) (i : Nat) : α := v.toList.getD i d

/-- The octets of one entry as it stands (R68, R195). -/
def State.entryOctets (s : State) (t : TableId) (i : Nat) : List Byte :=
  match t with
  | .axis => (bankGet s.axisTable AxisEntry.initial i).encode
  | .rig => (bankGet s.rigTable RigEntry.initial i).encode
  | .globals => s.globals.encode
  | .line => (bankGet s.lineTable LineEntry.initial i).encode

/-- The data of a READ_TABLE answered OK: the header again and the entries in ascending index (R68, R194). -/
def State.tableData (s : State) (t : TableId) (first count : Nat) : List Byte :=
  put8 (match t with
    | .axis => 0
    | .rig => 1
    | .globals => 2
    | .line => 3) ++ put8 first ++ put8 count
    ++ (List.range count).flatMap fun k => s.entryOctets t (first + k)

/-- The effect of READ_TABLE (R67, R68). -/
def readTable (f : Frame) (s : State) : State × Reply :=
  match headTable f, tableForm false f with
  | some t, .ok => (s, { result := .ok, data := s.tableData t (headFirst f) (headCount f) })
  | _, r => (s, reply r)

/-! ## Field checks (R70, R71, R72, R170) -/

/-- The first failing field of a list of numbered checks. -/
def firstFailing (checks : List (Nat × Bool)) : Option Nat := (checks.find? Prod.snd).map Prod.fst

/-- A code that is neither 0 nor 1. -/
def notBit (x : Nat) : Bool := 1 < x

/-- A value outside a range. -/
def outOf (lo hi x : Nat) : Bool := x < lo || hi < x

/-- The field checks of a carried axis entry (R70, R195). -/
def axisFieldChecks (o : List Byte) : List (Nat × Bool) :=
  [ (1, notBit (u8 o 0)),
    (2, notBit (u8 o 1)),
    (3, 62 < u8 o 2 || (u8 o 2 == 0 && u8 o 0 == 1)),
    (4, Config.maxPosition < u32 o 3),
    (5, Config.maxPosition < u32 o 7 || u32 o 7 ≤ u32 o 3),
    (6, u16 o 11 < 16),
    (7, outOf 1 4095 (u16 o 13)),
    (8, outOf 1 4095 (u16 o 15)),
    (9, u16 o 17 < u16 o 15 || 4095 < u16 o 17),
    (10, u16 o 19 < 16 || u16 o 11 < u16 o 19),
    (11, outOf 100 1000000 (u32 o 21)),
    (12, 6 < u8 o 25),
    (13, u8 o 26 == 0),
    (14, notBit (u8 o 27) || (u8 o 27 == 1 && outOf (u32 o 3) (u32 o 7) (u32 o 28))) ]

/-- The field checks of a carried rig entry against the axis table as it stands (R71, R195). -/
def State.rigFieldChecks (s : State) (o : List Byte) : List (Nat × Bool) :=
  let listed := (rigMembers o).map axisIdOf
  [ (1, 4 < u8 o 0 || (rigMembers o).any (fun m => 7 < m) || !decide (rigMembers o).Nodup
        || listed.any fun n => !(s.entry n).enabled),
    (2, notBit (u8 o 5)),
    (3, outOf 100 500000 (u32 o 6)),
    (4, notBit (u8 o 10) || (u8 o 10 == 1 && listed.any fun n => (s.entry n).park.isNone)),
    (5, outOf 1 4095 (u16 o 11)) ]

/-- The field checks of the global record (R66, R72). -/
def globalFieldChecks (o : List Byte) : List (Nat × Bool) :=
  [ (1, outOf 1000 10000 (u16 o 0)),
    (2, outOf 20 2000 (u16 o 2)),
    (3, outOf 4 64 (u8 o 4)),
    (4, outOf 1 8 (u8 o 5)),
    (5, outOf 2 8 (u8 o 6)),
    (6, outOf 20 1000 (u16 o 7)),
    (7, outOf 1 15 (u8 o 9)),
    (8, notBit (u8 o 10)),
    (9, notBit (u8 o 11)) ]

/-- The field checks of a carried line entry (R170). -/
def lineFieldChecks (o : List Byte) : List (Nat × Bool) :=
  [ (1, 6 < u8 o 0),
    (2, 3 < u8 o 1 || (u8 o 1 != 0 && lineFnOf (u8 o 0) != .motionOut && lineFnOf (u8 o 0) != .rigHoldIn)),
    (3, notBit (u8 o 2)),
    (4, 31 < u8 o 3) ]

/-! ## The union and the checks of an entry (R69) -/

/-- The octets of the k-th carried entry. -/
def carried (t : TableId) (f : Frame) (k : Nat) : List Byte := (f.payload.drop (4 + k * t.width)).take t.width

/-- The carried entries with the table index each names, in ascending index. -/
def carriedAll (t : TableId) (f : Frame) : List (Nat × List Byte) :=
  (List.range (headCount f)).map fun k => (headFirst f + k, carried t f k)

/-- A table with carried entries in place of the entries they name: the union (R69). -/
def unionOf {α : Type} {n : Nat} (decode : List Byte → α) (entries : List (Nat × List Byte))
    (v : Vector α n) : Vector α n :=
  entries.foldl (fun w e => if h : e.1 < n then Bank.put w ⟨e.1, h⟩ (decode e.2) else w) v

/-- The checks of one carried axis entry in the order of R69: fields, the union and the rig table, the
state permission (R70, R73). -/
def State.judgeAxisEntry (s : State) (union : Vector AxisEntry 8) (e : Nat × List Byte) : Option Result :=
  let n := axisIdOf e.1
  let x := AxisEntry.decode e.2
  match firstFailing (axisFieldChecks e.2) with
  | some field => some (.badValue e.1 field)
  | none =>
    if x.drive ≠ 0 ∧ allAxes.any (fun m => m ≠ n ∧ (Bank.at' union m).drive = x.drive) then
      some (.badValue e.1 3)
    else if (s.rigOf n).isSome ∧ !x.enabled then some (.inRig e.1)
    else if (s.rigOf n).any (fun r => (s.rig r).profile = .stopDwellPark) ∧ x.park.isNone then
      some (.inRig e.1)
    else
      let y := s.entry n
      let st := (s.ctx n).state
      if s.governor.state ≠ .safe
          ∧ ((st ≠ .locked ∧ st ≠ .offline) ∨ x.enabled ≠ y.enabled ∨ x.branch ≠ y.branch ∨ x.drive ≠ y.drive)
      then some (.wrongState s.governor.state (some st))
      else none

/-- The axis indices each entry of the union of the rig table lists. A carried entry still to be judged lists the
octets as they are carried, an index beyond 7 among them (R69, R71, R195; log 32). -/
def State.rigUnion (s : State) (entries : List (Nat × List Byte)) : Vector (List Nat) 4 :=
  unionOf rigMembers entries (Bank.mapIdx (fun _ (x : RigEntry) => x.members.map Fin.val) s.rigTable)

/-- The checks of one carried rig entry in the order of R69 (R71, R73). -/
def State.judgeRigEntry (s : State) (union : Vector (List Nat) 4) (e : Nat × List Byte) : Option Result :=
  let r : RigId := ⟨e.1 % 4, by omega⟩
  let x := RigEntry.decode e.2
  match firstFailing (s.rigFieldChecks e.2) with
  | some field => some (.badValue e.1 field)
  | none =>
    if allRigs.any (fun q => q ≠ r ∧ (rigMembers e.2).any (fun m => m ∈ Bank.at' union q)) then
      some (.badValue e.1 1)
    else if s.governor.state = .safe then none
    else
      (((s.rig r).members ++ x.members).find? fun n => (s.ctx n).state ≠ .locked).map fun n =>
        .wrongState s.governor.state (some (s.ctx n).state)

/-- The checks of the carried global record (R72). -/
def judgeGlobalEntry (e : Nat × List Byte) : Option Result :=
  (firstFailing (globalFieldChecks e.2)).map fun field => .badValue e.1 field

/-- The checks of one carried line entry (R72, R170). -/
def judgeLineEntry (e : Nat × List Byte) : Option Result :=
  (firstFailing (lineFieldChecks e.2)).map fun field => .badValue e.1 field

/-- The judgement of a WRITE_TABLE that passed its form (R69): the table permission, then every check of
each carried entry in ascending index. -/
def State.judgeWrite (s : State) (t : TableId) (f : Frame) : Result :=
  let entries := carriedAll t f
  let refused : Option Result := match t with
    | .axis => entries.findSome? (s.judgeAxisEntry (unionOf AxisEntry.decode entries s.axisTable))
    | .rig => entries.findSome? (s.judgeRigEntry (s.rigUnion entries))
    | .globals =>
      if s.governor.state = .safe then entries.findSome? judgeGlobalEntry
      else some (.wrongState s.governor.state none)
    | .line =>
      if s.governor.state = .safe then entries.findSome? judgeLineEntry
      else some (.wrongState s.governor.state none)
  refused.getD .ok

/-! ## Applying (R74 to R77, R102, R173) -/

/-- A context after the enable transition (R102). -/
def Ctx.enabled : Ctx := { Ctx.initial with state := .standby }

/-- A context that drops what it knew of its old drive (R75). -/
def Ctx.dropDrive (x : Ctx) : Ctx :=
  { x with ring := [], lastReport := none, lastFollow := none, fresh := false, lapse := 0 }

/-- What an applied axis entry does to its axis; `old` is the entry it replaced (R75, R102). -/
def State.applyAxis (n : AxisId) (old : AxisEntry) (s : State) : State :=
  let new := s.entry n
  if new.enabled ∧ !old.enabled then (s.changeCtx n Ctx.enabled).startContest n
  else if !new.enabled ∧ old.enabled then (s.changeCtx n Ctx.initial).stopContest n
  else if new.enabled ∧ (new.drive ≠ old.drive ∨ new.branch ≠ old.branch) then
    s.setCtx n (s.ctx n).dropDrive
  else s

/-- The carried axis entries replace those they name at once, then each acts on its axis (R74, R75). -/
def State.writeAxes (f : Frame) (s : State) : State :=
  let entries := carriedAll .axis f
  let s1 := { s with axisTable := unionOf AxisEntry.decode entries s.axisTable }
  entries.foldl (fun st e => st.applyAxis (axisIdOf e.1) (s.entry (axisIdOf e.1))) s1

/-- The carried rig entries replace those they name, and each sets its rig's runtime to its starting state
(R76). -/
def State.writeRigs (f : Frame) (s : State) : State :=
  let entries := carriedAll .rig f
  let s1 := { s with rigTable := unionOf RigEntry.decode entries s.rigTable }
  entries.foldl (fun st e => st.setDwell ⟨e.1 % 4, by omega⟩ none) s1

/-- The chain condition as the line block reports it (R148). -/
def State.reportChain (s : State) : State :=
  s.reportCondition .chain (s.globals.chainUse && !s.filtered .clearIn)

/-- The interval record after a write of swap_auto: cleared while it is clear; a write that sets it starts
the first interval at the next step start (R34). -/
def State.writeSwap (old : Globals) (s : State) : State :=
  if s.globals.swapAuto ∧ old.swapAuto then s
  else { s with router := { s.router with
    crossCount := 0, fromDA := false, fromDB := false, notCrossed := false, intervalOpen := false } }

/-- The carried global record is applied: P and W act on the cadence, chain_use on the chain condition,
swap_auto on the router (R53, R77, R148). -/
def State.writeGlobals (f : Frame) (s : State) : State :=
  let new := Globals.decode (carried .globals f 0)
  let s1 := { s with globals := new }
  let s2 := if new.P ≠ s.globals.P ∨ new.W ≠ s.globals.W then s1.rewriteCadence else s1
  s2.reportChain.writeSwap s.globals

/-- The notice source of a general line: RIG_HOLD_IN and ARM_KEY_IN place notices (R162). -/
def LineFn.placesNotices : LineFn → Bool
  | .rigHoldIn | .armKeyIn => true
  | _ => false

/-- An accepted change of a general line: its accepted level becomes its pin level, the note is dropped,
and a notice is placed when its function is a source (R160, R162). -/
def State.acceptGen (k : GenId) (s : State) : State :=
  let x := s.line (.gl k)
  let s1 := s.setLine (.gl k) { x with accepted := x.pin, noted := none }
  if (Bank.at' s.lineTable k).fn.placesNotices then
    s1.setNotices (placeLineNotice (.gl k) (s1.filtered (.gl k)) s1.engine.notices)
  else s1

/-- What an applied line entry does to its line (R173): a change of function or argument removes its
waiting notice; a change of filter time acts on a change already noted. Outputs are driven at the end of
the command. -/
def State.applyLine (k : GenId) (old : LineEntry) (s : State) : State :=
  let new := Bank.at' s.lineTable k
  let s1 := if new.fn ≠ old.fn ∨ new.arg ≠ old.arg then
      s.setNotices (s.engine.notices.filter fun n => !Notice.fromLine (.gl k) n)
    else s
  match (s1.line (.gl k)).noted with
  | none => s1
  | some t =>
    if new.filter ≠ old.filter ∧ new.filter * 1000 ≤ (s1.timeBase - t).toNat then s1.acceptGen k else s1

/-- The index of a general line, reduced to the bank's size; used only where R67 holds. -/
def genIdOf (x : Nat) : GenId := ⟨x % 6, by omega⟩

/-- The carried line entries replace those they name at once, then each acts on its line (R74, R173). DESIGN
CHOICE, log 34: they act in ascending line index, which orders the notices of the changes they accept. -/
def State.writeLines (f : Frame) (s : State) : State :=
  let entries := carriedAll .line f
  let s1 := { s with lineTable := unionOf LineEntry.decode entries s.lineTable }
  entries.foldl (fun st e => st.applyLine (genIdOf e.1) (Bank.at' s.lineTable (genIdOf e.1))) s1

/-- A write that passed every check is applied (R74). -/
def State.applyWrite (t : TableId) (f : Frame) (s : State) : State :=
  match t with
  | .axis => s.writeAxes f
  | .rig => s.writeRigs f
  | .globals => s.writeGlobals f
  | .line => s.writeLines f

/-- The effect of WRITE_TABLE: everything carried is applied, or nothing (R67, R69, R74). -/
def writeTable (f : Frame) (s : State) : State × Reply :=
  match headTable f, tableForm true f with
  | some t, .ok =>
    if s.judgeWrite t f = .ok then (s.applyWrite t f, reply .ok) else (s, reply (s.judgeWrite t f))
  | _, r => (s, reply r)

/-- READ_TABLE. -/
def execReadTable (s : State) : Host.Outcome State Fault Refusal := act (State.takeRequest .readTable readTable) s

/-- WRITE_TABLE. -/
def execWriteTable (s : State) : Host.Outcome State Fault Refusal :=
  act (State.takeRequest .writeTable writeTable) s

end Sys2Proof.Machine
end

