-- ==== Sys2Proof/Machine/LineBlock.lean ====
section
/-! DEFINITION. The line block (R160 to R173): pin changes, filters, brake contests; the commands
INPUT_PIN_CHANGE, INPUT_ACCEPTED, SETTLE_EXPIRY and MISMATCH_EXPIRY. -/

namespace Sys2Proof.Machine

/-! ## Brake contests (R166 to R168) -/

/-- The sense agrees with the permission a contest judges (R166). -/
def Contest.agrees (c : Contest) (senseReleased : Bool) : Bool := c.permission == senseReleased

/-- A contest after an accepted change of its sense: agreement drops the mismatch time and clears the stuck
flag, a disagreement that begins in WATCHING sets the mismatch time (R167, R168). -/
def Contest.senseChanged (c : Contest) (senseReleased : Bool) (mismatchAt : Micros) : Contest :=
  if c.agrees senseReleased then
    { c with
      stuck := false
      phase := match c.phase with
        | .settling t => .settling t
        | .watching _ => .watching none }
  else
    { c with phase := match c.phase with
        | .settling t => .settling t
        | .watching _ => .watching (some mismatchAt) }

/-- The accepted change of a sense acts on its axis's contest, and the stuck flags are reported (R167,
R168). -/
def State.contestSense (n : AxisId) (s : State) : State :=
  match s.contest n with
  | none => s
  | some c =>
    (s.setContest n (some (c.senseChanged (s.senseReleased n)
      (addMicros s.timeBase (s.globals.tb * 1000))))).reportStuck

/-- What an expiry that finds a disagreement does: with permission on a brake contest notice is placed, with
permission off the stuck flag is set and reported (R167, R168). `c` is the contest after the expiry. -/
def State.contestFails (n : AxisId) (c : Contest) (s : State) : State :=
  if c.permission then (s.setContest n (some c)).setNotices (placeOnce (.contest n) s.engine.notices)
  else (s.setContest n (some { c with stuck := true })).reportStuck

/-- The settle expiry of a contest in SETTLING (R167, R168). -/
def State.settleExpiry (n : AxisId) (s : State) : State :=
  match s.contest n with
  | none => s
  | some c =>
    match c.phase with
    | .watching _ => s
    | .settling t =>
      let s1 := s.advanceTo (ticksOf t)
      let c1 := { c with phase := .watching none }
      if c.agrees (s.senseReleased n) then s1.setContest n (some c1) else s1.contestFails n c1

/-- The mismatch expiry of a contest in WATCHING with a mismatch time (R167, R168). -/
def State.mismatchExpiry (n : AxisId) (s : State) : State :=
  match s.contest n with
  | none => s
  | some c =>
    match c.phase with
    | .watching (some t) => (s.advanceTo (ticksOf t)).contestFails n { c with phase := .watching none }
    | .watching none | .settling _ => s

/-! ## Accepted changes (R147, R148, R160, R162) -/

/-- A line's notice with its present filtered state is placed (R162). -/
def State.placeLine (src : NoticeLine) (l : LineId) (s : State) : State :=
  s.setNotices (placeLineNotice src (s.filtered l) s.engine.notices)

/-- What the acceptance of a line's change does beyond the filter: the contest and the notice of a sense, the
notice of an end of travel, the report and then the notice of STOP_IN and CLEAR_IN (R147, R148, R162, R167;
log 19). -/
def State.acceptedChange (l : LineId) (s : State) : State :=
  match l with
  | .sns n => (s.contestSense n).placeLine (.sns n) l
  | .eot n => s.placeLine (.eot n) l
  | .stopIn => (s.reportCondition .stopIn (s.filtered .stopIn)).placeLine .stopIn l
  | .clearIn => s.reportChain.placeLine .clearIn l
  | .brk _ | .clearOut | .adr _ | .gl _ => s

/-- A filter accepts the level its pin stands at; the note is dropped (R160). -/
def State.acceptLine (l : LineId) (s : State) : State :=
  match l with
  | .gl k => s.acceptGen k
  | _ => (s.setLine l { s.line l with accepted := (s.line l).pin, noted := none }).acceptedChange l

/-- The filter time of a noted change has passed (R160). -/
def State.inputAccepted (l : LineId) (s : State) : State :=
  match (s.line l).noted with
  | none => s
  | some t => (s.advanceTo (ticksOf (addMicros t (s.filterMicros l)))).acceptLine l

/-- A noted change whose filter time has passed by a moment, when no INPUT_ACCEPTED has taken it: it is accepted
(R160; log 12). -/
def State.overdueAcceptance (l : LineId) (now : Ticks) (s : State) : State :=
  match (s.line l).noted with
  | none => s
  | some t => if reached (ticksOf (addMicros t (s.filterMicros l))) now then s.inputAccepted l else s

/-! ## Pin changes (R160) -/

/-- The pin of a filtered line goes to a level: a return to the accepted level drops the note; a change away
from it is noted, and accepted at once where the filter time is 0 (R160). -/
def State.filterPin (l : LineId) (high : Bool) (s : State) : State :=
  let x := s.line l
  if high = x.accepted then s.setLine l { x with pin := high, noted := none }
  else
    let s1 := s.setLine l { x with pin := high, noted := some s.timeBase }
    if s1.filterMicros l = 0 then s1.acceptLine l else s1

/-- The pin of a line goes to a level (R160). A strap has no filter: its sampled value stands until the next
release (R24, R174). A level that the pin already has is no change. -/
def State.pinChange (l : LineId) (high : Bool) (s : State) : State :=
  if (s.line l).pin = high then s
  else
    match l with
    | .adr _ => s.setLine l { s.line l with pin := high }
    | _ => s.filterPin l high

/-- The pin of a line while RESET_N is low: the filters hold nothing that survives the release (R161, R175;
log 13). -/
def State.pinInReset (l : LineId) (high : Bool) (s : State) : State :=
  s.setLine l { s.line l with pin := high }

/-- The pin of a line goes to a level a number of bit times from now; a change of the level it had that is overdue
by then is accepted first (R160; log 12). -/
def State.pinEvent (l : LineId) (high : Bool) (wait : Nat) (s : State) : State :=
  let now := s.clock + BitVec.ofNat 50 wait
  let s1 := if (s.line l).pin = high then s else s.overdueAcceptance l now
  State.pinChange l high { s1 with clock := now }

/-- INPUT_PIN_CHANGE. -/
def execInputPinChange (l : LineId) (high : Bool) (wait : Nat) (s : State) :
    Host.Outcome State Fault Refusal :=
  .next (if s.resetLow then s.pinInReset l high else (s.pinEvent l high wait).drive)

/-- INPUT_ACCEPTED. -/
def execInputAccepted (l : LineId) (s : State) : Host.Outcome State Fault Refusal :=
  act (State.inputAccepted l) s

/-- SETTLE_EXPIRY. -/
def execSettleExpiry (n : AxisId) (s : State) : Host.Outcome State Fault Refusal := act (State.settleExpiry n) s

/-- MISMATCH_EXPIRY. -/
def execMismatchExpiry (n : AxisId) (s : State) : Host.Outcome State Fault Refusal :=
  act (State.mismatchExpiry n) s

end Sys2Proof.Machine
end

