-- ==== Sys2Proof/Machine/Link.lean ====
section
/-! DEFINITION. The cue link (R2 to R21): receiving characters, gaps, breaks, false starts, the completion
of a received frame, the completion of a sent one. -/

namespace Sys2Proof.Machine

/-- The three classes of a framed character (R3). -/
inductive CharClass where
  | good | framing | brk
deriving DecidableEq, Repr

/-- The class of a sampled character from its data bits and the level of its stop bit (R3). -/
def charClass (octet : Byte) (stopMark : Bool) : CharClass :=
  if stopMark then .good else if octet = 0 then .brk else .framing

/-- The rate check on the span of a SYNC (R8). -/
def rateOk (span : Nat) : Bool := Config.spanMin ≤ span && span ≤ Config.spanMax

/-- The receiver holds a whole frame that FRAME_COMPLETE has still to judge (R9, R16; log 11). -/
def RxMode.awaitsJudgement : RxMode → Bool
  | .receive octets _ => frameWhole octets
  | _ => false

/-- The receiver is in BREAK. -/
def RxMode.inBreak : RxMode → Bool
  | .brk _ => true
  | _ => false

/-- The receiver can frame a character now: its line has returned to mark since a reset, no break is in
progress and no whole frame waits to be judged (R15, R22, R23; log 11). -/
def Receiver.listens (x : Receiver) : Bool := !x.heldSpace && !x.mode.inBreak && !x.mode.awaitsJudgement

/-- A receiver in another mode. -/
def Receiver.enter (m : RxMode) (x : Receiver) : Receiver := { x with mode := m }

/-- A gap at a receiver (R4, R7, R11, R12). -/
def State.gapAt (p : PortId) (s : State) : State :=
  let x := (s.port p).rx
  let quiet : Receiver := { x with idleFrom := none }
  match x.mode with
  | .hunt _ | .discard => s.setRx p (quiet.enter (.hunt true))
  | .receive _ _ => (s.setRx p (quiet.enter (.hunt true))).linkError p .short
  | .brk _ => s

/-- A gap that idle line reached before a start edge, when no GAP command has taken it (R4; log 12). -/
def State.overdueGap (p : PortId) (edge : Ticks) (s : State) : State :=
  match (s.port p).rx.idleFrom with
  | some t => if reached (t + BitVec.ofNat 50 Config.gapTicks) edge then s.gapAt p else s
  | none => s

/-- One octet of a frame in RECEIVE: collected, fed into the running CRC unless it is a CRC octet; a LEN
above 192 gives the frame up (R9). -/
def collect (octets : List Byte) (crc : BitVec 16) (o : Byte) : RxMode :=
  let grown := octets ++ [o]
  if octets.length = 3 ∧ Config.maxLen < o.toNat then .discard
  else if octets.length < 4 ∨ octets.length < 4 + u8 octets 3 then .receive grown (crcOctet crc o)
  else .receive grown crc

/-- A framed character in a receiver's state (R7, R9, R10, R12, R14). `x` already holds the times of the
character. -/
def State.takeCharacter (p : PortId) (x : Receiver) (octet : Byte) (cls : CharClass) (span : Nat)
    (s : State) : State :=
  match cls, x.mode with
  | .brk, .receive _ _ => (s.setRx p { x with mode := .brk false, idleFrom := none }).linkError p .aborted
  | .brk, _ => s.setRx p { x with mode := .brk false, idleFrom := none }
  | .framing, .hunt true | .framing, .receive _ _ => (s.setRx p (x.enter .discard)).linkError p .framing
  | .good, .hunt true =>
    if octet = Config.sync then
      if rateOk span then s.setRx p (x.enter (.receive [] 0xFFFF))
      else (s.setRx p (x.enter .discard)).linkError p .rate
    else s.setRx p (x.enter .discard)
  | .good, .receive octets crc =>
    match collect octets crc octet with
    | .discard => (s.setRx p (x.enter .discard)).linkError p .tooLong
    | m => s.setRx p (x.enter m)
  | _, _ => s.setRx p x

/-- A character framed at this moment: its start edge lies ten bit times back (R2, R3); idle is measured
from the end of its stop bit (R4). DESIGN CHOICE, log 33: so it is where the stop bit is sampled at space and the
line may stand at space still; R4 does not say whether that time is idle. -/
def State.receive (p : PortId) (octet : Byte) (stopMark : Bool) (span : Nat) (s : State) : State :=
  if (s.port p).rx.listens then
    let edge := s.clock - BitVec.ofNat 50 Config.charTicks
    let s1 := s.overdueGap p edge
    let x := { (s1.port p).rx with lastEdge := edge, lastStop := s1.clock, idleFrom := some s1.clock }
    s1.takeCharacter p x octet (charClass octet stopMark) span
  else s

/-- Idle line reaches 5 µs (R4). -/
def State.gapEvent (p : PortId) (s : State) : State :=
  let x := (s.port p).rx
  match x.idleFrom with
  | some t => if x.listens then (s.advanceTo (t + BitVec.ofNat 50 Config.gapTicks)).gapAt p else s
  | none => s

/-- A break reaches 80 µs: counted at that moment, and on U the latched cause LONG_BREAK is raised (R15). -/
def State.longBreakAt (p : PortId) (s : State) : State :=
  let s1 := (s.setRx p ((s.port p).rx.enter (.brk true))).linkError p .longBreak
  if p = .u then s1.joinCause .longBreak else s1

/-- The moment the break in progress reaches 80 µs (R15). -/
def Receiver.longBreakTime (x : Receiver) : Ticks := x.lastEdge + BitVec.ofNat 50 Config.longBreakTicks

/-- LONG_BREAK occurs in BREAK, once for a break (R15). -/
def State.longBreakEvent (p : PortId) (s : State) : State :=
  let x := (s.port p).rx
  match x.mode with
  | .brk false => (s.advanceTo x.longBreakTime).longBreakAt p
  | _ => s

/-- A receiver back in HUNT with the gap-seen flag clear, measuring idle from now (R15). -/
def State.backToHunt (p : PortId) (s : State) : State :=
  s.setRx p { (s.port p).rx with mode := .hunt false, idleFrom := some s.clock, heldSpace := false }

/-- The line returns to mark (R15): a break under 80 µs, or at that instant before LONG_BREAK, counts BREAK;
a break whose 80 µs have passed counts LONG_BREAK first (log 12). A line held at space through a reset
only begins to be heard (R22, R23; log 10). -/
def State.returnEvent (p : PortId) (s : State) : State :=
  let x := (s.port p).rx
  match x.mode with
  | .brk true => s.backToHunt p
  | .brk false =>
    if reached x.longBreakTime s.clock ∧ s.clock ≠ x.longBreakTime then (s.longBreakAt p).backToHunt p
    else (s.linkError p .brk).backToHunt p
  | _ => if x.heldSpace then s.backToHunt p else s

/-- A false start (R3, R4): no character; idle is measured again from now, the return to mark. Its start edge lies
less than half a bit time before the return, so a gap due at the return itself has not occurred (log 12). -/
def State.falseStartEvent (p : PortId) (s : State) : State :=
  if (s.port p).rx.listens then
    let s1 := s.overdueGap p (s.clock - 1)
    s1.setRx p { (s1.port p).rx with idleFrom := some s1.clock }
  else s

/-- A good frame is offered to the port's receive FIFO; as the new head of an empty FIFO it is judged at
once (R17, R25). -/
def State.offer (p : PortId) (r : Received) (s : State) : State :=
  let q := (s.port p).fifo
  if Config.fifoDepth ≤ q.length then s.linkError p .overrun
  else if q.isEmpty then (s.setFifo p [r]).route p
  else s.setFifo p (q ++ [r])

/-- A frame is complete: its CRC is compared; it counts CRC, or GOOD and is offered to the FIFO with the
time base at the end of its last stop bit (R16). -/
def State.completeEvent (p : PortId) (s : State) : State :=
  let x := (s.port p).rx
  match x.mode with
  | .receive octets crc =>
    if frameWhole octets then
      let s1 := s.setRx p (x.enter (.hunt false))
      if crc.toNat = crcReceived octets then
        (s1.bumpPort p .good).offer p { frame := frameOf octets, arrival := microsOf x.lastStop }
      else s1.linkError p .crc
    else s
  | _ => s

/-- A transmitter finishes its frame and gap and becomes free; its arbiter chooses again (R19). -/
def State.transmitEvent (p : PortId) (s : State) : State :=
  match (s.port p).tx with
  | some x => ((s.advanceTo x.freeAt).setTx p none).startTx p
  | none => s

/-- RECEIVE_CHARACTER. -/
def execReceiveCharacter (p : PortId) (octet : Byte) (stopMark : Bool) (span wait : Nat) (s : State) :
    Host.Outcome State Fault Refusal :=
  act (fun s => (s.elapse wait).receive p octet stopMark span) s

/-- GAP. -/
def execGap (p : PortId) (s : State) : Host.Outcome State Fault Refusal := act (State.gapEvent p) s

/-- LONG_BREAK. -/
def execLongBreak (p : PortId) (s : State) : Host.Outcome State Fault Refusal :=
  act (State.longBreakEvent p) s

/-- RETURN_TO_MARK. -/
def execReturnToMark (p : PortId) (wait : Nat) (s : State) : Host.Outcome State Fault Refusal :=
  act (fun s => (s.elapse wait).returnEvent p) s

/-- FRAME_COMPLETE. -/
def execFrameComplete (p : PortId) (s : State) : Host.Outcome State Fault Refusal :=
  act (State.completeEvent p) s

/-- TRANSMIT_COMPLETE. -/
def execTransmitComplete (p : PortId) (s : State) : Host.Outcome State Fault Refusal :=
  act (State.transmitEvent p) s

/-- FALSE_START. -/
def execFalseStart (p : PortId) (wait : Nat) (s : State) : Host.Outcome State Fault Refusal :=
  act (fun s => (s.elapse wait).falseStartEvent p) s

end Sys2Proof.Machine
end

