-- ==== Sys2Proof/Machine/Release.lean ====
section
/-! DEFINITION. RELEASE, LOCK and RECOVER, and the opening (R105 to R111, R122). -/

namespace Sys2Proof.Machine

/-! ## Targets -/

/-- What RELEASE and LOCK name (R105). -/
inductive Target where
  | axis (n : AxisId)
  | rig (r : RigId)
deriving DecidableEq, Repr

/-- The target of a kind and an index, or the result that refuses it (R105, R111, R193). -/
def parseTarget (kind index : Nat) : Except Result Target :=
  match kind with
  | 0 => if h : index < 8 then .ok (.axis ⟨index, h⟩) else .error .badIndex
  | 1 => if h : index < 4 then .ok (.rig ⟨index, h⟩) else .error .badIndex
  | _ => .error .badRequest

/-- The target a RELEASE or LOCK frame names. -/
def Frame.target (f : Frame) : Except Result Target := parseTarget (u8 f.payload 1) (u8 f.payload 2)

/-- The axes a target covers, in list order (R105). -/
def State.covered (s : State) : Target → List AxisId
  | .axis n => [n]
  | .rig r => (s.rig r).members

/-! ## Opening (R108) -/

/-- The open flag of a releasing axis. -/
def AxisState.isOpen : AxisState → Bool
  | .releasing _ o => o
  | _ => false

/-- An axis opens: it enters the state its release-next names, p and t as they stood, v at 0 (R108). -/
def State.openAxis (n : AxisId) (s : State) : State :=
  let x := s.ctx n
  match x.state with
  | .releasing .follow _ => s.changeCtx n { x with state := .follow, v := 0 }
  | .releasing .recovering _ => s.changeCtx n { x with state := .recovering, v := 0 }
  | _ => s

/-- The axes that the opening judged for an axis would open: a lone or recovering axis by its own flag, a
rig when its open-set holds every member (R108). -/
def State.opening (s : State) (n : AxisId) : List AxisId :=
  match (s.ctx n).state with
  | .releasing .recovering o => if o then [n] else []
  | .releasing .follow o =>
    match s.rigOf n with
    | none => if o then [n] else []
    | some r => if s.openSet r = (s.rig r).members then (s.rig r).members else []
  | _ => []

/-- The opening is judged: it takes place only while the governor is ARMED (R108). -/
def State.judgeOpening (n : AxisId) (s : State) : State :=
  if s.governor.state = .armed then (s.opening n).foldl (fun st m => st.openAxis m) s else s

/-! ## RELEASE (R105 to R107) -/

/-- A named axis is not a member of a rig in use, and a named rig is in use (R105). -/
def State.targetStands (s : State) : Target → Bool
  | .axis n => (s.rigOf n).isNone
  | .rig r => (s.rig r).inUse

/-- The last reported position lies outside the envelope (R106, R122). -/
def State.reportOutside (s : State) (n : AxisId) : Bool :=
  match (s.ctx n).lastReport with
  | some r => decide (r.position < (s.entry n).lo) || decide (((s.entry n).hi : Int) < r.position)
  | none => false

/-- The cause checks of RELEASE on one axis (R106). -/
def State.releaseCause (s : State) (n : AxisId) : Option Result :=
  let x := s.ctx n
  if !x.fresh then some (.causeActive .notFresh (some n.val))
  else if s.filtered (.eot n) then some (.causeActive .eot (some n.val))
  else if !x.driveReady then some (.causeActive .driveFault (some n.val))
  else if s.reportOutside n then some (.causeActive .outside (some n.val))
  else none

/-- The rig hold check of a target; a lone axis has none (R106). -/
def State.holdCheck (s : State) : Target → Option Result
  | .axis _ => none
  | .rig r => if s.rigHoldActive r then some (.causeActive .rigHold (some r.val)) else none

/-- The judgement of RELEASE in the order of R105. -/
def State.judgeRelease (f : Frame) (s : State) : Result :=
  if s.governor.state ≠ .armed then .wrongState s.governor.state none
  else match f.target with
    | .error r => r
    | .ok g =>
      if !s.targetStands g then .wrongTarget
      else match (s.covered g).find? fun n => (s.ctx n).state ≠ .locked with
        | some n => .wrongState s.governor.state (some (s.ctx n).state)
        | none =>
          match (s.covered g).findSome? s.releaseCause, s.holdCheck g with
          | some r, _ => r
          | none, some r => r
          | none, none => if s.armKeyOff then .causeActive .armKey none else .ok

/-- A context released from its last report toward a state, its open flag from the filtered sense (R107,
R122). -/
def State.releasedCtx (s : State) (next : ReleaseNext) (n : AxisId) : Ctx :=
  let x := s.ctx n
  let p := match x.lastReport with
    | some r => r.position
    | none => x.p
  { x.clearFaults with
    state := .releasing next (s.senseReleased n), p := p, v := 0, t := p, ring := [] }

/-- What an accepted RELEASE does to its axes, and the opening if every one is already open (R107). -/
def State.releaseEffect (f : Frame) (s : State) : State :=
  match f.target with
  | .error _ => s
  | .ok g =>
    let axes := s.covered g
    let s1 := axes.foldl (fun st n => st.changeCtx n (s.releasedCtx .follow n)) s
    match axes with
    | [] => s1
    | n :: _ => s1.judgeOpening n

/-! ## LOCK (R111) -/

/-- The axis is RECOVERING, or RELEASING toward it: it may be locked by name though a rig member (R111). -/
def State.lockTargetStands (s : State) : Target → Bool
  | .axis n => (s.rigOf n).isNone || (s.ctx n).state.recoveringOrToward
  | .rig r => (s.rig r).inUse

/-- A lone axis can be locked in FOLLOW, RECOVERING or RELEASING (R111). -/
def AxisState.lockableAlone : AxisState → Bool
  | .follow | .recovering | .releasing _ _ => true
  | _ => false

/-- The axis is RELEASING with release-next FOLLOW. -/
def AxisState.towardFollow : AxisState → Bool
  | .releasing .follow _ => true
  | _ => false

/-- The first covered axis in list order that is not in a lockable state: for a rig every member in FOLLOW,
or every member RELEASING toward FOLLOW, as the first member stands (R111; log 18). -/
def State.unlockable (s : State) : Target → Option AxisId
  | .axis n => if (s.ctx n).state.lockableAlone then none else some n
  | .rig r =>
    match (s.rig r).members with
    | [] => none
    | lead :: rest =>
      if (s.ctx lead).state = .follow then rest.find? fun m => (s.ctx m).state ≠ .follow
      else if (s.ctx lead).state.towardFollow then rest.find? fun m => !(s.ctx m).state.towardFollow
      else some lead

/-- The judgement of LOCK in the order of R111. -/
def State.judgeLock (f : Frame) (s : State) : Result :=
  if s.governor.state ≠ .armed then .wrongState s.governor.state none
  else match f.target with
    | .error r => r
    | .ok g =>
      if !s.lockTargetStands g then .wrongTarget
      else match s.unlockable g with
        | some n => .wrongState s.governor.state (some (s.ctx n).state)
        | none => .ok

/-- What an accepted LOCK does to one axis: a NORMAL ramp from motion, LOCKED from RELEASING (R110, R111). -/
def State.lockAxis (n : AxisId) (s : State) : State :=
  match (s.ctx n).state with
  | .follow | .recovering => s.enterState n (.stopping .normal)
  | .releasing _ _ => s.enterState n .locked
  | _ => s

/-- The axes an accepted LOCK acts on: those covered, and with a releasing axis every other member of its
rig that is RELEASING (R110, R111). -/
def State.lockReach (s : State) (g : Target) : List AxisId :=
  match g with
  | .rig r => (s.rig r).members
  | .axis n =>
    match s.rigOf n, (s.ctx n).state with
    | some r, .releasing _ _ => n :: (s.rig r).members.filter fun m => m ≠ n && (s.ctx m).state.code == 3
    | _, _ => [n]

/-- What an accepted LOCK does (R111). -/
def State.lockEffect (f : Frame) (s : State) : State :=
  match f.target with
  | .error _ => s
  | .ok g => (s.lockReach g).foldl (fun st n => st.lockAxis n) s

/-! ## RECOVER (R122) -/

/-- The first other member of the axis's rig in list order that is not LOCKED (R122). -/
def State.otherUnlocked (s : State) (n : AxisId) : Option AxisId :=
  match s.rigOf n with
  | none => none
  | some r => (s.rig r).members.find? fun m => m ≠ n && (s.ctx m).state ≠ .locked

/-- The judgement of RECOVER on an axis from check 3 on; R122 names no index beside its refusal codes
(DEDUCED, log 29). -/
def State.judgeRecoverAxis (s : State) (n : AxisId) : Result :=
  let x := s.ctx n
  if x.state ≠ .locked then .wrongState s.governor.state (some x.state)
  else match s.otherUnlocked n with
    | some m => .wrongState s.governor.state (some (s.ctx m).state)
    | none =>
      if !x.fresh then .causeActive .notFresh none
      else if !x.driveReady then .causeActive .driveFault none
      else if s.armKeyOff then .causeActive .armKey none
      else if !s.reportOutside n then .causeActive .inside none
      else .ok

/-- The judgement of RECOVER in the order of R122. -/
def State.judgeRecover (f : Frame) (s : State) : Result :=
  if s.governor.state ≠ .armed then .wrongState s.governor.state none
  else if h : u8 f.payload 1 < 8 then s.judgeRecoverAxis ⟨u8 f.payload 1, h⟩
  else .badIndex

/-- What an accepted RECOVER does, and the opening if the brake is already open (R108, R122). -/
def State.recoverEffect (f : Frame) (s : State) : State :=
  let n := axisIdOf (u8 f.payload 1)
  (s.changeCtx n (s.releasedCtx .recovering n)).judgeOpening n

/-- RELEASE. -/
def execRelease (s : State) : Host.Outcome State Fault Refusal :=
  act (State.takeRequest .release (judged State.judgeRelease State.releaseEffect)) s

/-- LOCK. -/
def execLock (s : State) : Host.Outcome State Fault Refusal :=
  act (State.takeRequest .lock (judged State.judgeLock State.lockEffect)) s

/-- RECOVER. -/
def execRecover (s : State) : Host.Outcome State Fault Refusal :=
  act (State.takeRequest .recover (judged State.judgeRecover State.recoverEffect)) s

end Sys2Proof.Machine
end

