-- ==== Sys2Proof/Machine/Notices.lean ====
section
/-! DEFINITION. The taking of notices (R54, R108, R124, R140, R159, R163, R164, R167). -/

namespace Sys2Proof.Machine

/-- The state with the oldest notice removed from the list. -/
def State.dropNotice (s : State) : State := s.setNotices s.engine.notices.tail

/-- The engine takes the notice the arbiter chooses, when an effect is named for it: the notice leaves the
list and acts (R55, R163). -/
def State.takeNotice (effect : Notice → Option (State → State)) (s : State) : State :=
  match s.arbiter with
  | some (.notice n) =>
    match effect n with
    | some e => e s.dropNotice
    | none => s
  | _ => s

/-! ## Sense (R108) -/

/-- A releasing axis's open flag follows the sense, and the opening is judged; in any other state nothing
changes (R108). -/
def State.senseTaken (n : AxisId) (active : Bool) (s : State) : State :=
  match (s.ctx n).state with
  | .releasing next _ => (s.enterState n (.releasing next active)).judgeOpening n
  | _ => s

/-- The effect of a sense notice. -/
def senseEffect : Notice → Option (State → State)
  | .line (.sns n) active _ => some (State.senseTaken n active)
  | _ => none

/-! ## End of travel (R164) -/

/-- An end-of-travel notice raises EOT when its activated flag is set (R164). -/
def eotEffect : Notice → Option (State → State)
  | .line (.eot n) _ activated => some fun s => if activated then s.raiseAlone n .eot else s
  | _ => none

/-! ## STOP_IN and CLEAR_IN (R159) -/

/-- A notice of STOP_IN or CLEAR_IN changes nothing (R159). -/
def stopClearEffect : Notice → Option (State → State)
  | .line .stopIn _ _ | .line .clearIn _ _ => some id
  | _ => none

/-! ## General lines (R140, R163) -/

/-- The lead stands where a rig hold acts: FOLLOW, or RELEASING toward it (R140). -/
def AxisState.holdable : AxisState → Bool
  | .follow | .releasing .follow _ => true
  | _ => false

/-- RIG_HOLD is raised on the lead of the rig when it stands as R140 requires. -/
def State.rigHold (r : RigId) (s : State) : State :=
  match (s.rig r).members with
  | [] => s
  | lead :: _ => if (s.ctx lead).state.holdable then s.raiseAloneOnce lead .rigHold else s

/-- The effect of a rig hold notice on a line by its entry (R140). -/
def rigHoldEffect (lineTable : Vector LineEntry 6) : Notice → Option (State → State)
  | .line (.gl k) _ activated =>
    if (Bank.at' lineTable k).fn = .rigHoldIn then
      some fun s => if activated then s.rigHold (Bank.at' lineTable k).arg else s
    else none
  | _ => none

/-- A notice of an arming key changes nothing (R163). -/
def armKeyEffect (lineTable : Vector LineEntry 6) : Notice → Option (State → State)
  | .line (.gl k) _ _ => if (Bank.at' lineTable k).fn = .armKeyIn then some id else none
  | _ => none

/-! ## Brake contest (R167) -/

/-- A brake contest notice raises BRAKE_NOT_OPEN on its axis; an OFFLINE axis is not touched (R167). -/
def contestEffect : Notice → Option (State → State)
  | .contest n => some (State.raiseAlone n .brakeNotOpen)
  | _ => none

/-! ## Trip entry (R124) -/

/-- The state an axis is left in by trip entry; `settle` is its entry's settle value (R124). -/
def AxisState.afterTrip (settle : Nat) : AxisState → AxisState
  | .follow | .parking | .recovering | .stopping _ => .stopping .fault
  | .dwelling => .holding settle
  | .releasing _ _ => .locked
  | st => st

/-- Trip entry acts on every axis by its state and empties every rig runtime; no cause is recorded and no
event latched (R124). -/
def State.tripEntry (s : State) : State :=
  let s1 := allAxes.foldl (fun st n => st.enterState n ((st.ctx n).state.afterTrip (st.entry n).settle)) s
  { s1 with dwell := Bank.all 4 none }

/-- The effect of the trip entry notice. -/
def tripEffect : Notice → Option (State → State)
  | .tripEntry => some State.tripEntry
  | _ => none

/-- SENSE_NOTICE. -/
def execSenseNotice (s : State) : Host.Outcome State Fault Refusal := act (State.takeNotice senseEffect) s

/-- EOT_NOTICE. -/
def execEotNotice (s : State) : Host.Outcome State Fault Refusal := act (State.takeNotice eotEffect) s

/-- STOP_CLEAR_NOTICE. -/
def execStopClearNotice (s : State) : Host.Outcome State Fault Refusal :=
  act (State.takeNotice stopClearEffect) s

/-- RIG_HOLD_NOTICE. -/
def execRigHoldNotice (s : State) : Host.Outcome State Fault Refusal :=
  act (State.takeNotice (rigHoldEffect s.lineTable)) s

/-- ARM_KEY_NOTICE. -/
def execArmKeyNotice (s : State) : Host.Outcome State Fault Refusal :=
  act (State.takeNotice (armKeyEffect s.lineTable)) s

/-- BRAKE_CONTEST_NOTICE. -/
def execBrakeContestNotice (s : State) : Host.Outcome State Fault Refusal :=
  act (State.takeNotice contestEffect) s

/-- TRIP_ENTRY. -/
def execTripEntry (s : State) : Host.Outcome State Fault Refusal := act (State.takeNotice tripEffect) s

end Sys2Proof.Machine
end

