-- ==== Sys2Proof/Machine/Reset.lean ====
section
/-! DEFINITION. RESET_N (R23, R161, R175, R176). -/

namespace Sys2Proof.Machine

/-- The levels at the pins of the 36 lines. -/
def State.pins (s : State) : Vector Bool 36 := Bank.mapIdx (fun _ l => l.pin) s.lines

/-- The part held in reset: every output low, nothing being sent, and every piece of state at its reset
value but the event latch, which receives POWER_UP at the release (R175, R182; log 13). The pins and the
waiting commands stay. -/
def State.assertReset (s : State) : State :=
  State.drive { State.released s.pins true true true s.pending with resetLow := true, latch := 0 }

/-- The release of RESET_N: straps sampled, filters at the pin levels, everything at its reset value
(R176). A release occurs only while RESET_N is low. -/
def State.releaseReset (uMark daMark dbMark : Bool) (s : State) : State :=
  if s.resetLow then State.released s.pins uMark daMark dbMark s.pending else s

/-- RESET_N_ASSERT. -/
def execResetNAssert (s : State) : Host.Outcome State Fault Refusal := .next s.assertReset

/-- RESET_N_RELEASE. -/
def execResetNRelease (uMark daMark dbMark : Bool) (s : State) : Host.Outcome State Fault Refusal :=
  .next (s.releaseReset uMark daMark dbMark)

end Sys2Proof.Machine
end

