-- ==== Sys2Proof/Machine/Responder.lean ====
section
/-! DEFINITION. ACK_EVENTS, READ_LINES, READ_COUNTERS and PORT_RESET (R22, R174, R183, R185). -/

namespace Sys2Proof.Machine

/-! ## ACK_EVENTS (R183) -/

/-- The effect of ACK_EVENTS: a mask that names a flag beyond number 21 is refused; otherwise every named
flag is cleared and the latch that is left is returned (R183, R193, R194). -/
def ackEvents (f : Frame) (s : State) : State × Reply :=
  let mask := u24 f.payload 1
  if 2 ^ 22 ≤ mask then (s, reply .badRequest)
  else
    let left := s.latch &&& ~~~(BitVec.ofNat 22 mask)
    ({ s with latch := left }, { result := .ok, data := put24 left.toNat })

/-! ## READ_LINES (R174) -/

/-- The level the line block drives on a line; none where it drives nothing (R174). -/
def State.drivenLevel (s : State) : LineId → Option Bool
  | .brk n => some (Bank.at' s.outputs.brk n)
  | .clearOut => some s.outputs.clearOut
  | .gl k => Bank.at' s.outputs.gl k
  | .sns _ | .eot _ | .stopIn | .clearIn | .adr _ => none

/-- The code of a driven level in a line record (R194). -/
def drivenCode : Option Bool → Nat
  | none => 2
  | some b => codeBool b

/-- The record of one line: driven, sensed, filtered (R174, R194). -/
def State.lineRecord (s : State) (l : LineId) : List Byte :=
  put8 (drivenCode (s.drivenLevel l) + 4 * codeBool (s.line l).pin + 8 * codeBool (s.filtered l))

/-- The effect of READ_LINES (R174). -/
def readLines (_ : Frame) (s : State) : State × Reply :=
  (s, { result := .ok, data := LineId.all.flatMap s.lineRecord })

/-! ## READ_COUNTERS (R185) -/

/-- What a selector names (R185, R193). -/
inductive Selector where
  | port (p : PortId)
  | globals
deriving DecidableEq, Repr

/-- The port a code names (R193). -/
def portCode (code : Nat) : Option PortId :=
  match code with
  | 0 => some .u
  | 1 => some .da
  | 2 => some .db
  | _ => none

/-- The selector a code names (R193). -/
def selectorOf (code : Nat) : Option Selector :=
  match code with
  | 3 => some .globals
  | c => (portCode c).map Selector.port

/-- The counters a selector names, in their order of reading (R21, R184). -/
def State.selected (s : State) : Selector → List Count
  | .port p => (s.port p).counters.toList
  | .globals => s.counters.toList

/-- The state with the selected counters at 0. -/
def State.clearSelected (sel : Selector) (s : State) : State :=
  match sel with
  | .port p => s.setPort p { s.port p with counters := Bank.all 10 0 }
  | .globals => { s with counters := Bank.all 20 0 }

/-- The effect of READ_COUNTERS: the selector is judged before the clear flag (R185). -/
def readCounters (f : Frame) (s : State) : State × Reply :=
  match selectorOf (u8 f.payload 1) with
  | none => (s, reply .badIndex)
  | some sel =>
    let data := { result := Result.ok, data := (s.selected sel).flatMap fun c => put16 c.toNat }
    match u8 f.payload 2 with
    | 0 => (s, data)
    | 1 => (s.clearSelected sel, data)
    | _ => (s, reply .badRequest)

/-! ## PORT_RESET (R22) -/

/-- A port after PORT_RESET: receive FIFO empty, receiver in HUNT with the flag clear, counters 0; a frame
being sent is finished whole (R22). -/
def Port.afterReset (lineAtMark : Bool) (now : Ticks) (x : Port) : Port where
  rx := Receiver.start lineAtMark now x.rx.lastEdge x.rx.lastStop
  fifo := []
  tx := x.tx
  counters := Bank.all 10 0

/-- The transmit queues of a port emptied: U's three, or those of the branch mapped to a drive port at this
moment (R22, R31, R40). -/
def State.emptyQueues (p : PortId) (s : State) : State :=
  match branchOn s.router.mapping p with
  | none => { s with queues := { s.queues with status := none, responses := [], forward := [] } }
  | some b => s.setBranch b { command := none, passthrough := [] }

/-- What a taken PORT_RESET does to the named port (R22). -/
def State.resetPort (lineAtMark : Bool) (p : PortId) (s : State) : State :=
  (s.setPort p ((s.port p).afterReset lineAtMark s.clock)).emptyQueues p

/-- The effect of PORT_RESET: an unknown port is BAD_INDEX; DA and DB are refused while the governor is not
SAFE (R22). -/
def portReset (lineAtMark : Bool) (f : Frame) (s : State) : State × Reply :=
  match portCode (u8 f.payload 1) with
  | none => (s, reply .badIndex)
  | some p =>
    if p ≠ .u ∧ s.governor.state ≠ .safe then (s, reply (.wrongState s.governor.state none))
    else (s.resetPort lineAtMark p, reply .ok)

/-- ACK_EVENTS. -/
def execAckEvents (s : State) : Host.Outcome State Fault Refusal :=
  act (State.takeRequest .ackEvents ackEvents) s

/-- READ_LINES. -/
def execReadLines (s : State) : Host.Outcome State Fault Refusal :=
  act (State.takeRequest .readLines readLines) s

/-- READ_COUNTERS. -/
def execReadCounters (s : State) : Host.Outcome State Fault Refusal :=
  act (State.takeRequest .readCounters readCounters) s

/-- PORT_RESET. -/
def execPortReset (lineAtMark : Bool) (s : State) : Host.Outcome State Fault Refusal :=
  act (State.takeRequest .portReset (portReset lineAtMark)) s

end Sys2Proof.Machine
end

