-- ==== Sys2Proof/Machine/Dispatch.lean ====
section
/-! DEFINITION. The dispatch: one arm for each command of the table, one call of its meaning. -/

namespace Sys2Proof.Machine

def exec (i : Instr) (s : State) : Host.Outcome State Fault Refusal :=
  match i with
  | .resetNAssert => Sys2Proof.Machine.execResetNAssert s
  | .resetNRelease uMark daMark dbMark => Sys2Proof.Machine.execResetNRelease uMark daMark dbMark s
  | .receiveCharacter port octet stopMark span wait => Sys2Proof.Machine.execReceiveCharacter port octet stopMark span wait s
  | .gap port => Sys2Proof.Machine.execGap port s
  | .longBreak port => Sys2Proof.Machine.execLongBreak port s
  | .returnToMark port wait => Sys2Proof.Machine.execReturnToMark port wait s
  | .frameComplete port => Sys2Proof.Machine.execFrameComplete port s
  | .transmitComplete port => Sys2Proof.Machine.execTransmitComplete port s
  | .paceTimerExpiry => Sys2Proof.Machine.execPaceTimerExpiry s
  | .lapseExpiry => Sys2Proof.Machine.execLapseExpiry s
  | .stepStart => Sys2Proof.Machine.execStepStart s
  | .stepCompletion wait => Sys2Proof.Machine.execStepCompletion wait s
  | .takeSetpoint => Sys2Proof.Machine.execTakeSetpoint s
  | .takeReport => Sys2Proof.Machine.execTakeReport s
  | .readTable => Sys2Proof.Machine.execReadTable s
  | .writeTable => Sys2Proof.Machine.execWriteTable s
  | .arm => Sys2Proof.Machine.execArm s
  | .disarm => Sys2Proof.Machine.execDisarm s
  | .stopAll => Sys2Proof.Machine.execStopAll s
  | .resetTrip => Sys2Proof.Machine.execResetTrip s
  | .release => Sys2Proof.Machine.execRelease s
  | .lock => Sys2Proof.Machine.execLock s
  | .recover => Sys2Proof.Machine.execRecover s
  | .ackEvents => Sys2Proof.Machine.execAckEvents s
  | .readLines => Sys2Proof.Machine.execReadLines s
  | .readCounters => Sys2Proof.Machine.execReadCounters s
  | .portReset lineAtMark => Sys2Proof.Machine.execPortReset lineAtMark s
  | .unknownRequest => Sys2Proof.Machine.execUnknownRequest s
  | .senseNotice => Sys2Proof.Machine.execSenseNotice s
  | .eotNotice => Sys2Proof.Machine.execEotNotice s
  | .stopClearNotice => Sys2Proof.Machine.execStopClearNotice s
  | .rigHoldNotice => Sys2Proof.Machine.execRigHoldNotice s
  | .armKeyNotice => Sys2Proof.Machine.execArmKeyNotice s
  | .brakeContestNotice => Sys2Proof.Machine.execBrakeContestNotice s
  | .tripEntry => Sys2Proof.Machine.execTripEntry s
  | .inputPinChange line high wait => Sys2Proof.Machine.execInputPinChange line high wait s
  | .inputAccepted line => Sys2Proof.Machine.execInputAccepted line s
  | .settleExpiry axis => Sys2Proof.Machine.execSettleExpiry axis s
  | .mismatchExpiry axis => Sys2Proof.Machine.execMismatchExpiry axis s
  | .falseStart port wait => Sys2Proof.Machine.execFalseStart port wait s

end Sys2Proof.Machine
end

