-- ==== Sys2Proof/Machine/Step.lean ====
section
/-! DEFINITION. One step of the block: the command at the front of the queue, or a tick of the clock. -/

namespace Sys2Proof.Machine

/-- The block with no command waiting: the clock advances by one bit time (R45); while RESET_N is low it
stands (R60). DESIGN CHOICE, log 2. -/
def State.idle (s : State) : State := if s.resetLow then s else s.elapse 1

/-- One step: the command at the front of the queue acts on the state with the queue's rest; on an empty
queue the block idles. -/
def step (s : State) : Host.Outcome State Fault Refusal :=
  match s.pending with
  | [] => .next s.idle
  | c :: rest => exec c { s with pending := rest }

/-- The state with the command a word spells put at the front of its queue; no word spells one (log 27). -/
def State.withFetchWord (s : State) (nbits w : Nat) : State :=
  match decodeTableWord nbits w with
  | some c => { s with pending := c :: s.pending }
  | none => s

end Sys2Proof.Machine
end

