-- ==== Sys2Proof/WellFormed.lean ====
section
/-! DEFINITION. Which commands are well formed: the operand values the part can meet. The meanings are
total and do not depend on these checks. -/

namespace Sys2Proof

/-- A wait is shorter than the clock's own period (R45), so that no moment is passed by whole turns. -/
def waitOk (wait : Nat) : Bool := wait < 2 ^ 50

/-- A line whose changes are accepted by a filter: every line but the address straps (R160, R174). -/
def LineId.filtered : LineId → Bool
  | .adr _ => false
  | _ => true

/-- The commands whose operands the part can meet: waits inside the clock's period; a step completes
within 150 µs (R56); a strap has no filter (R160); the start-to-stop span of a sampled character is
above 0 (R8). -/
def WellFormed : Instr → Bool
  | .receiveCharacter _ _ _ span wait => 0 < span && waitOk wait
  | .returnToMark _ wait => waitOk wait
  | .stepCompletion wait => wait ≤ Config.stepTicks
  | .inputPinChange _ _ wait => waitOk wait
  | .inputAccepted line => line.filtered
  | .falseStart _ wait => waitOk wait
  | .resetNAssert | .resetNRelease _ _ _ | .gap _ | .longBreak _ | .frameComplete _
  | .transmitComplete _ | .paceTimerExpiry | .lapseExpiry | .stepStart | .takeSetpoint | .takeReport
  | .readTable | .writeTable | .arm | .disarm | .stopAll | .resetTrip | .release | .lock | .recover
  | .ackEvents | .readLines | .readCounters | .portReset _ | .unknownRequest | .senseNotice | .eotNotice
  | .stopClearNotice | .rigHoldNotice | .armKeyNotice | .brakeContestNotice | .tripEntry
  | .settleExpiry _ | .mismatchExpiry _ => true

end Sys2Proof
end

