-- ==== Sys2Proof/Safety.lean ====
section
/-! DEFINITION. What the claims are stated in: the parts of a state and what a command leaves unchanged, and
the laws of the part that every step keeps (R61, R65, R88, R89, R93, R99, R109, R125, R130, R144, R157). -/

namespace Sys2Proof.Machine

/-! ## Frames -/

/-- The parts of a state. -/
inductive Part where
  | pending | resetLow | clock
  | port (p : PortId)
  | router | queues | cadence | engine | axisTable | rigTable | globals | lineTable | axes | dwell
  | governor | lines | contests | motion | outputs | latch | counters
deriving DecidableEq, Repr

/-- Two states agree in a part. -/
def Part.same (s t : State) : Part → Prop
  | .pending => t.pending = s.pending
  | .resetLow => t.resetLow = s.resetLow
  | .clock => t.clock = s.clock
  | .port p => t.port p = s.port p
  | .router => t.router = s.router
  | .queues => t.queues = s.queues
  | .cadence => t.cadence = s.cadence
  | .engine => t.engine = s.engine
  | .axisTable => t.axisTable = s.axisTable
  | .rigTable => t.rigTable = s.rigTable
  | .globals => t.globals = s.globals
  | .lineTable => t.lineTable = s.lineTable
  | .axes => t.axes = s.axes
  | .dwell => t.dwell = s.dwell
  | .governor => t.governor = s.governor
  | .lines => t.lines = s.lines
  | .contests => t.contests = s.contests
  | .motion => t.motion = s.motion
  | .outputs => t.outputs = s.outputs
  | .latch => t.latch = s.latch
  | .counters => t.counters = s.counters

/-- Everything but the parts listed is unchanged. -/
def State.keepsBut (changed : List Part) (s t : State) : Prop := ∀ p : Part, p ∉ changed → p.same s t

/-- Every axis context but those listed is unchanged. -/
def State.keepsAxesBut (changed : List AxisId) (s t : State) : Prop := ∀ n, n ∉ changed → t.ctx n = s.ctx n

/-- Every line but those listed is unchanged. -/
def State.keepsLinesBut (changed : List LineId) (s t : State) : Prop := ∀ l, l ∉ changed → t.line l = s.line l

/-- Exactly the events listed are latched; every other flag stays (R182). -/
def State.latches (events : List EventFlag) (s t : State) : Prop :=
  ∀ e, t.hasEvent e = (s.hasEvent e || decide (e ∈ events))

/-- Exactly the global counters listed count one event each (R184). -/
def State.counts (cs : List GlobalCounter) (s t : State) : Prop :=
  ∀ c, t.count c = if c ∈ cs then satInc (s.count c) else s.count c

/-- Exactly the counters of a port that are listed count one event each (R21). -/
def State.portCounts (p : PortId) (cs : List PortCounter) (s t : State) : Prop :=
  ∀ c, t.portCount p c = if c ∈ cs then satInc (s.portCount p c) else s.portCount p c

/-- The FIFO and the transmitter of a port are unchanged. -/
def State.keepsQueuesOf (p : PortId) (s t : State) : Prop :=
  (t.port p).fifo = (s.port p).fifo ∧ (t.port p).tx = (s.port p).tx

/-! ## Requests (R177 to R180) -/

/-- The console's frame a piece of work carries. -/
def Work.consoleFrame : Work → Option Frame
  | .console r => some r.frame
  | .notice _ | .step | .drive _ _ _ => none

/-- The engine's arbiter chooses a request frame of a kind, and U's response FIFO has room (R55, R177, R178). -/
def State.asked (k : ReqKind) (f : Frame) (s : State) : Prop :=
  s.resetLow = false ∧ s.arbiter.bind Work.consoleFrame = some f ∧ f.kind = kindRequest ∧ f.request = k
    ∧ s.queues.responses.length < Config.responseDepth

/-- The response to a request stands at the tail of U's response FIFO, or is being sent when U was free (R19,
R179). -/
def State.answered (f : Frame) (a : Reply) (s t : State) : Prop :=
  if s.u.tx = none then t.u.tx = some (sendingOf (responseFrame f a) s.clock) ∧ t.queues.responses = []
  else t.u.tx = s.u.tx ∧ t.queues.responses = s.queues.responses ++ [responseFrame f a]

/-- What the taking of a frame from U leaves alone of the link. The frames behind it may be judged by the router:
what is left of U's FIFO is a rear part of it that is empty or begins with work for the engine, and passthrough may
be queued and started (R25, R26, R27). -/
def State.routesBehind (s t : State) : Prop :=
  t.u.fifo <:+ s.u.fifo.tail ∧ (∀ r ∈ t.u.fifo.head?, t.judgeU r.frame = .engine)
    ∧ (∀ p, (t.port p).rx = (s.port p).rx)
    ∧ t.da.fifo = s.da.fifo ∧ t.db.fifo = s.db.fifo
    ∧ t.queues.forward = s.queues.forward ∧ t.queues.status = s.queues.status

/-- What the frames behind a frame taken from U leave alone of the transmitters and of the drive ports' queues: a
frame being sent goes on, the command slots stand, passthrough frames join behind those that wait, and with no frame
behind nothing changes (R19, R27, R39). -/
def State.passesBehind (s t : State) : Prop :=
  (∀ p x, (s.port p).tx = some x → (t.port p).tx = some x)
    ∧ (∀ b, (t.branch b).command = (s.branch b).command ∧ (s.branch b).passthrough <+: (t.branch b).passthrough)
    ∧ (s.u.fifo.tail = [] →
      t.da.tx = s.da.tx ∧ t.db.tx = s.db.tx ∧ t.queues.b0 = s.queues.b0 ∧ t.queues.b1 = s.queues.b1)

/-- The port counters are unchanged and exactly the global counters listed count one event each, but for those that
may count more. -/
def State.countsBeyond (more cs : List GlobalCounter) (s t : State) : Prop :=
  (∀ p c, t.portCount p c = s.portCount p c)
    ∧ ∀ c, (c ∉ more → t.count c = if c ∈ cs then satInc (s.count c) else s.count c)
      ∧ (if c ∈ cs then satInc (s.count c) else s.count c) ≤ t.count c

/-- What counts at the taking of a frame from U: the counters listed, and UNROUTED and PASS_BLOCKED for the frames
behind it; the counters listed alone when there is none (R26, R27). -/
def State.countsBehind (cs : List GlobalCounter) (s t : State) : Prop :=
  s.countsBeyond [.unrouted, .passBlocked] cs t ∧ (s.u.fifo.tail = [] → s.counts cs t)

/-- What the taking of a report leaves alone of the link. The frames behind it may be judged by the router: what is
left of the port's FIFO is a rear part of it that is empty or begins with work for the engine, and frames may be
forwarded to U, behind those that wait and without effect on a frame being sent (R19, R25, R29, R30). -/
def State.routesBehindOn (p : PortId) (s t : State) : Prop :=
  (t.port p).fifo <:+ (s.port p).fifo.tail ∧ (∀ r ∈ (t.port p).fifo.head?, t.judgeDrive r.frame = .engine)
    ∧ (∀ q, (t.port q).rx = (s.port q).rx) ∧ (∀ q, q ≠ p → (t.port q).fifo = (s.port q).fifo)
    ∧ t.da.tx = s.da.tx ∧ t.db.tx = s.db.tx ∧ t.queues.b0 = s.queues.b0 ∧ t.queues.b1 = s.queues.b1
    ∧ t.queues.status = s.queues.status ∧ t.queues.responses = s.queues.responses
    ∧ s.queues.forward <+: t.queues.forward ∧ (∀ x, s.u.tx = some x → t.u.tx = some x)
    ∧ ((s.port p).fifo.tail = [] → t.queues.forward = s.queues.forward ∧ t.u.tx = s.u.tx)

/-- What counts at the taking of a report: the counters listed, and UNROUTED and FWD_DROP for the frames behind it;
the counters listed alone when there is none (R29, R30). -/
def State.countsBehindOn (p : PortId) (cs : List GlobalCounter) (s t : State) : Prop :=
  s.countsBeyond [.unrouted, .fwdDrop] cs t ∧ ((s.port p).fifo.tail = [] → s.counts cs t)

/-- Everything that neither the routing behind a taken frame nor its response touches, but for the parts
listed, is unchanged. -/
def State.keepsBeyondLink (changed : List Part) (s t : State) : Prop :=
  s.keepsBut ([.port .u, .port .da, .port .db, .queues, .counters, .outputs] ++ changed) t

/-- A request is answered and nothing else changes (R68, R174, R180). -/
def State.onlyAnswers (f : Frame) (a : Reply) (s t : State) : Prop :=
  s.answered f a t ∧ s.routesBehind t ∧ s.passesBehind t ∧ s.countsBehind [] t ∧ s.keepsBeyondLink [] t

/-- The command that takes a request of a kind (R178); the level of the receive line matters to PORT_RESET. -/
def ReqKind.command (lineAtMark : Bool) : ReqKind → Instr
  | .readTable => .readTable
  | .writeTable => .writeTable
  | .arm => .arm
  | .disarm => .disarm
  | .stopAll => .stopAll
  | .resetTrip => .resetTrip
  | .release => .release
  | .lock => .lock
  | .recover => .recover
  | .ackEvents => .ackEvents
  | .readLines => .readLines
  | .readCounters => .readCounters
  | .portReset => .portReset lineAtMark
  | .unknown => .unknownRequest

/-! ## Trips (R144 to R146) -/

/-- A trip cause is raised: not held in SAFE; in ARMED it joins the set, the governor enters TRIPPED, TRIP is
latched and trip entry placed; in TRIPPED it is added (R144, R145, R146). -/
def State.tripRaised (c : TripCause) (s t : State) : Prop :=
  match s.governor.state with
  | .safe => t.governor.state = .safe ∧ t.governor.causes = s.governor.causes
  | .armed => t.governor.state = .tripped ∧ t.governor.causes = causeAdd s.governor.causes c
      ∧ t.hasEvent .trip = true ∧ Notice.tripEntry ∈ t.engine.notices
  | .tripped => t.governor.state = .tripped ∧ t.governor.causes = causeAdd s.governor.causes c

/-- Governor control but for its state and its set of causes is unchanged: the four condition flags stand. -/
def State.keepsConditions (s t : State) : Prop :=
  t.governor = { s.governor with state := t.governor.state, causes := t.governor.causes }

/-- The waiting notices after a trip cause is raised: the trip entry joins them at the entry into TRIPPED (R54,
R146). -/
def State.noticesAtTrip (s : State) : List Notice :=
  if s.governor.state = .armed then placeOnce .tripEntry s.engine.notices else s.engine.notices

/-! ## Time (R4, R45) -/

/-- No gap has come due on a port before an edge (R4). -/
def State.gapNotDue (p : PortId) (edge : Ticks) (s : State) : Prop :=
  ∀ t ∈ (s.port p).rx.idleFrom, reached (t + 20) edge = false

/-- The clock when an event due at a moment occurs: that moment, or now when the moment is past (log 2, log 3). -/
def State.clockAt (d : Ticks) (s : State) : Ticks := if reached d s.clock then s.clock else d

/-! ## Fault causes (R112 to R116, R166) -/

/-- A brake contest restarts exactly where the brake permission of its axis changes (R166). -/
def State.contestsRestart (s t : State) : Prop :=
  ∀ n, t.contest n =
    if (t.ctx n).state.permission = (s.ctx n).state.permission then s.contest n
    else (s.contest n).map fun _ => s.freshContest (t.ctx n).state.permission

/-- The other members of an axis's rig, in list order. -/
def State.others (s : State) (n : AxisId) : List AxisId :=
  match s.rigOf n with
  | none => []
  | some r => (s.rig r).members.filter (· ≠ n)

/-- RIG_FAULT of an axis's rig (R116). -/
def State.rigEvents (s : State) (n : AxisId) : List EventFlag :=
  match s.rigOf n with
  | none => []
  | some r => [.rigFault r]

/-- The context of a member that is taken over with RIG_MEMBER (R114). -/
def State.takenOver (s : State) (m : AxisId) : Ctx :=
  let x := s.ctx m
  if x.state = .offline then x
  else { x.record .rigMember s.engine.gseq with state := x.faultRow.target.getD x.state }

/-- A fault cause is raised on an axis: by no judgement that stopped the axis before, in the row of R113 for its
state, with the takeover of its rig (R112 to R116, R123). -/
def State.raised (n : AxisId) (c : Cause) (s t : State) : Prop :=
  let x := s.ctx n
  let y := x.record c s.engine.gseq
  if x.state = .offline ∨ c = .eot ∧ x.state.recoveringOrToward = true then s.keepsBut [.outputs] t
  else if s.governor.state ≠ .armed ∨ x.faultRow = .recordOnly then
    t.ctx n = y ∧ s.keepsAxesBut [n] t ∧ s.keepsBut [.axes, .outputs] t
  else match x.faultRow.target with
    | none =>
      t.ctx n = y ∧ s.keepsAxesBut [n] t ∧ s.latches ([.axisFault n, .trip] ++ s.rigEvents n) t
        ∧ s.tripRaised .escalation t ∧ s.keepsConditions t
        ∧ t.engine = { s.engine with notices := s.noticesAtTrip } ∧ s.keepsBut [.axes, .latch, .governor, .engine, .outputs] t
    | some st =>
      t.ctx n = { y with state := st } ∧ (∀ m ∈ s.others n, t.ctx m = s.takenOver m)
        ∧ s.keepsAxesBut (n :: s.others n) t ∧ s.contestsRestart t
        ∧ s.latches ([.axisFault n] ++ s.rigEvents n
            ++ ((s.others n).filter fun m => (s.ctx m).faultRow.target ≠ none).map .axisFault) t
        ∧ s.keepsBut [.axes, .latch, .contests, .outputs] t

/-! ## Outputs (R99, R157, R165, R172) -/

/-- Every output stands at the level its owner's state gives. -/
def State.OutputsFollow (s : State) : Prop := s.outputs = s.outputLevels

/-! ## Governor and axis states (R99, R102 to R104) -/

/-- In SAFE every axis is STANDBY or OFFLINE; outside SAFE none is STANDBY (R99, R103, R104, R116). -/
def State.ModesLaw (s : State) : Prop :=
  ∀ n, if s.governor.state = .safe then (s.ctx n).state = .offline ∨ (s.ctx n).state = .standby
    else (s.ctx n).state ≠ .standby

/-- An axis is OFFLINE exactly when its entry is disabled, and exactly then it has no brake contest (R62,
R102, R166); an OFFLINE context is empty (R98). -/
def State.EnabledLaw (s : State) : Prop :=
  ∀ n, ((s.entry n).enabled = true ↔ (s.ctx n).state ≠ .offline)
    ∧ ((s.entry n).enabled = true ↔ s.contest n ≠ none)
    ∧ ((s.ctx n).state = .offline → s.ctx n = Ctx.initial)

/-! ## Tables (R61 to R66, R70 to R72, R170) -/

/-- The fields of an axis entry lie in their ranges (R62, R63, R64, R70). -/
def AxisEntry.Valid (e : AxisEntry) : Prop :=
  e.drive ≤ 62 ∧ (e.enabled = true → e.drive ≠ 0)
    ∧ e.lo < e.hi ∧ e.hi ≤ 60000000
    ∧ 16 ≤ e.vmax ∧ e.vmax ≤ 65535
    ∧ 1 ≤ e.amax ∧ e.amax ≤ 4095
    ∧ 1 ≤ e.dmax ∧ e.dmax ≤ e.dstop ∧ e.dstop ≤ 4095
    ∧ 16 ≤ e.crawl ∧ e.crawl ≤ e.vmax
    ∧ 100 ≤ e.followTol ∧ e.followTol ≤ 1000000
    ∧ e.echoDelay ≤ 6 ∧ 1 ≤ e.settle ∧ e.settle ≤ 255
    ∧ ∀ k ∈ e.park, e.lo ≤ k ∧ k ≤ e.hi

/-- The fields of a rig entry lie in their ranges (R65, R71). -/
def RigEntry.Valid (e : RigEntry) : Prop :=
  e.members.length ≤ 4 ∧ e.members.Nodup ∧ 100 ≤ e.skewTol ∧ e.skewTol ≤ 500000 ∧ 1 ≤ e.dwell ∧ e.dwell ≤ 4095

/-- The fields of the global record lie in their ranges (R66). -/
def Globals.Valid (g : Globals) : Prop :=
  1000 ≤ g.P ∧ g.P ≤ 10000 ∧ 20 ≤ g.W ∧ g.W ≤ 2000 ∧ 4 ≤ g.nLock ∧ g.nLock ≤ 64 ∧ 1 ≤ g.J ∧ g.J ≤ 8
    ∧ 2 ≤ g.L ∧ g.L ≤ 8 ∧ 20 ≤ g.tb ∧ g.tb ≤ 1000 ∧ 1 ≤ g.reportLapse ∧ g.reportLapse ≤ 15

/-- The fields of a line entry lie in their ranges (R170). -/
def LineEntry.Valid (e : LineEntry) : Prop :=
  e.filter ≤ 31 ∧ (e.fn ≠ .motionOut → e.fn ≠ .rigHoldIn → e.arg = 0)

/-- The tables pass every check a write makes: each field in its range; drive addresses unique; a rig's
members enabled, in no other rig, and with park where the profile needs it (R65, R69 to R72). -/
def State.TablesLaw (s : State) : Prop :=
  (∀ n, (s.entry n).Valid) ∧ (∀ r, (s.rig r).Valid) ∧ s.globals.Valid
    ∧ (∀ k, (Bank.at' s.lineTable k).Valid)
    ∧ (∀ n m, n ≠ m → (s.entry n).drive ≠ 0 → (s.entry n).drive ≠ (s.entry m).drive)
    ∧ (∀ r, ∀ n ∈ (s.rig r).members, (s.entry n).enabled = true
        ∧ ((s.rig r).profile = .stopDwellPark → (s.entry n).park ≠ none))
    ∧ (∀ r q, ∀ n, n ∈ (s.rig r).members → n ∈ (s.rig q).members → r = q)

/-! ## Lines (R160, R161) -/

/-- A filter holds a noted time exactly while its pin stands away from the accepted level; a strap has no filter
and nothing is noted while RESET_N is low (R160, R161). -/
def State.LinesLaw (s : State) : Prop :=
  ∀ l, if s.resetLow = true ∨ l.filtered = false then (s.line l).noted = none
    else ((s.line l).noted = none ↔ (s.line l).pin = (s.line l).accepted)

/-! ## Conditions, causes and contests (R143, R144, R145, R166 to R168) -/

/-- The mismatch time of a phase. -/
def Phase.mismatch : Phase → Option Micros
  | .settling _ => none
  | .watching t => t

/-- A brake contest judges its axis's permission; a stuck flag stands only with permission off and the brake
showing released; a mismatch time only while the sense disagrees (R166, R167, R168). -/
def State.ContestsLaw (s : State) : Prop :=
  ∀ n, ∀ c ∈ s.contest n,
    c.permission = (s.ctx n).state.permission
      ∧ (c.stuck = true → c.permission = false ∧ s.senseReleased n = true ∧ c.phase = .watching none)
      ∧ (c.phase.mismatch ≠ none → s.senseReleased n ≠ c.permission)

/-- The four condition flags are copies of the conditions the blocks report (R143, R147, R148, R149). -/
def State.FlagsLaw (s : State) : Prop :=
  s.governor.stop = s.filtered .stopIn
    ∧ s.governor.chain = (s.globals.chainUse && !s.filtered .clearIn)
    ∧ s.governor.cadence = (s.cadence.state != .locked)
    ∧ s.governor.stuck = s.anyStuck

/-- The trip-cause set: empty in SAFE; empty and with no condition flag set in ARMED; in TRIPPED it holds an
active cause exactly when its flag is set (R144, R145). -/
def State.CausesLaw (s : State) : Prop :=
  match s.governor.state with
  | .safe => s.governor.causes = 0
  | .armed => s.governor.causes = 0 ∧ s.governor.activeCauses = 0
  | .tripped => s.governor.causes &&& 0x0F = s.governor.activeCauses

/-- The states that trip entry leaves no axis in: FOLLOW, RELEASING, PARKING, RECOVERING (R125). -/
def AxisState.endedByTrip : AxisState → Bool
  | .releasing _ _ | .follow | .parking | .recovering => true
  | .offline | .standby | .locked | .stopping _ | .holding _ | .dwelling => false

/-- While the governor is TRIPPED and its trip entry has been taken, no axis is in FOLLOW, RELEASING, PARKING
or RECOVERING (R125). -/
def State.AfterTripLaw (s : State) : Prop :=
  s.governor.state = .tripped → Notice.tripEntry ∉ s.engine.notices →
    ∀ n, (s.ctx n).state.endedByTrip = false

/-! ## Cadence (R49, R52) -/

/-- The lapse deadline is held exactly while LOCKED, the pace timer runs exactly while not LOCKED (R49, R52),
and a last arrival is held outside UNLOCKED (R45). -/
def State.CadenceLaw (s : State) : Prop :=
  (s.cadence.state = .locked ↔ s.cadence.lapse ≠ none) ∧ (s.cadence.state = .locked ↔ s.cadence.paceNext = none)
    ∧ (s.cadence.state ≠ .unlocked → s.cadence.lastArrival ≠ none)

/-! ## Queues and notices (R17, R28, R30, R36, R39, R54) -/

/-- No queue holds more than its capacity; outside SAFE the passthrough FIFOs are empty; U's transmitter is
free only while U's queues are empty, and, while no step is in flight, a drive port's only while those of the branch
mapped to it are (R17, R19, R28, R30, R36, R39). -/
def State.QueuesLaw (s : State) : Prop :=
  (∀ p, (s.port p).fifo.length ≤ 4) ∧ s.queues.responses.length ≤ 2 ∧ s.queues.forward.length ≤ 4
    ∧ (∀ b, (s.branch b).passthrough.length ≤ 4)
    ∧ (s.governor.state ≠ .safe → ∀ b, (s.branch b).passthrough = [])
    ∧ (s.u.tx = none → s.queues.status = none ∧ s.queues.responses = [] ∧ s.queues.forward = [])
    ∧ (s.engine.inFlight = none → ∀ p b, branchOn s.router.mapping p = some b → (s.port p).tx = none →
      s.branch b = { command := none, passthrough := [] })

/-- The source of a notice (R54). -/
inductive NoticeSource where
  | line (src : NoticeLine)
  | contest (n : AxisId)
  | governor
deriving DecidableEq, Repr

/-- The source a notice comes from. -/
def Notice.source : Notice → NoticeSource
  | .line src _ _ => .line src
  | .contest n => .contest n
  | .tripEntry => .governor

/-- A notice is one its source can have placed: a general line's function is a source, and an active state
carries the activated flag (R54, R162, R173). -/
def Notice.lawful (lineTable : Vector LineEntry 6) : Notice → Bool
  | .line (.gl k) active activated => (Bank.at' lineTable k).fn.placesNotices && (!active || activated)
  | .line _ active activated => !active || activated
  | .contest _ | .tripEntry => true

/-- The notice list holds at most one notice from each source, each as its source can have placed it (R54, R162,
R173). -/
def State.NoticesLaw (s : State) : Prop :=
  (s.engine.notices.map Notice.source).Nodup ∧ ∀ n ∈ s.engine.notices, n.lawful s.lineTable = true

/-! ## History rings (R130) -/

/-- The number of the last completed step. -/
def State.lastCompleted (s : State) : Byte :=
  match s.engine.inFlight with
  | none => s.engine.gseq
  | some _ => s.engine.gseq - 1

/-- The step numbers of k consecutive steps that end with one, oldest first. -/
def stepsUpTo (last : Byte) : Nat → List Byte
  | 0 => []
  | k + 1 => stepsUpTo (last - 1) k ++ [last]

/-- A history ring holds at most eight pairs, of consecutive steps that end with the last completed one, oldest
first (R130). -/
def State.RingsLaw (s : State) : Prop :=
  ∀ n, (s.ctx n).ring.length ≤ 8
    ∧ (s.ctx n).ring.map RingPair.step = stepsUpTo s.lastCompleted (s.ctx n).ring.length

/-! ## Motion (R85, R88, R89, R93, R97) -/

/-- A line stands inside its envelope and can stop inside it at dmax: the reserve that R85's stages keep. The
text of R88 asks for one speed more, which the motions of R85, R91 and the worked case exceed (log 30). -/
def Ctx.inside (e : AxisEntry) (x : Ctx) : Prop :=
  (e.lo : Int) ≤ x.p ∧ x.p ≤ e.hi
    ∧ (0 ≤ x.v → x.p + runOut x.v.toNat e.dmax ≤ e.hi)
    ∧ (x.v ≤ 0 → (e.lo : Int) ≤ x.p - runOut (-x.v).toNat e.dmax)

/-- A line stands on or beyond a bound, at rest or moving toward it, and can stop at dmax without passing it
(R93). -/
def Ctx.outside (e : AxisEntry) (x : Ctx) : Prop :=
  ((e.hi : Int) ≤ x.p ∧ x.v ≤ 0 ∧ (e.hi : Int) ≤ x.p - runOut (-x.v).toNat e.dmax)
    ∨ (x.p ≤ e.lo ∧ 0 ≤ x.v ∧ x.p + runOut x.v.toNat e.dmax ≤ e.lo)

/-- What the position and velocity of a context obey by its state (R88, R89, R93, R97). -/
def Ctx.MotionLaw (e : AxisEntry) (x : Ctx) : Prop :=
  match x.state with
  | .offline => True
  | .standby | .locked => x.v = 0
  | .releasing .follow _ | .dwelling => x.inside e ∧ x.v = 0
  | .releasing .recovering _ => x.outside e ∧ x.v = 0
  | .follow => x.inside e ∧ x.v.natAbs ≤ e.vmax
  | .parking => x.inside e ∧ x.v.natAbs ≤ e.crawl
  | .recovering => x.outside e ∧ x.v.natAbs ≤ e.crawl
  | .stopping _ => x.inside e ∨ x.outside e
  | .holding _ => (x.inside e ∨ x.outside e) ∧ x.v = 0

/-- Every axis obeys the motion law of its state. -/
def State.MotionsLaw (s : State) : Prop := ∀ n, (s.ctx n).MotionLaw (s.entry n)

/-- If any member of a rig is in FOLLOW, every member of that rig is (R109). -/
def State.RigsLaw (s : State) : Prop :=
  ∀ r, ∀ n ∈ (s.rig r).members, (s.ctx n).state = .follow → ∀ m ∈ (s.rig r).members, (s.ctx m).state = .follow

/-! ## All of them -/

/-- Every law that every step keeps. -/
structure State.Laws (s : State) : Prop where
  outputs : s.OutputsFollow
  modes : s.ModesLaw
  enabled : s.EnabledLaw
  tables : s.TablesLaw
  lines : s.LinesLaw
  contests : s.ContestsLaw
  flags : s.FlagsLaw
  causes : s.CausesLaw
  afterTrip : s.AfterTripLaw
  cadence : s.CadenceLaw
  queues : s.QueuesLaw
  notices : s.NoticesLaw
  rings : s.RingsLaw
  motions : s.MotionsLaw
  rigs : s.RigsLaw

end Sys2Proof.Machine
end

