-- ==== Sys2Proof/Certificates/Slice0/Obligations.lean ====
section
/-! DEFINITION. The statements for the provers. A command is a step of the part; its operands are what it brings
from outside. Every frame is said through `State.keepsBut`. -/

open Sys2Proof Sys2Proof.Machine

/-! ## The machine -/

/-- A step runs the command at the front of the queue on the state with the queue's rest; with no command waiting
the clock advances by one bit time, and stands while RESET_N is low (the model's choice, log 2). -/
def Obligations.StepTakesTheFrontCommand : Prop :=
  ∀ s : State,
    (∀ c rest, s.pending = c :: rest → step s = exec c { s with pending := rest })
      ∧ (s.pending = [] →
          step s = .next (if s.resetLow = true then s else { s with clock := s.clock + 1 }))

/-- The values the spec gives for the release of RESET_N, in the model's state right after reset. That an OFFLINE
axis holds its absent p, v and t as 0 is the model's choice (log 28). -/
def Obligations.ResetValues : Prop :=
  let s := State.reset
  (∀ p, (s.port p).rx.mode = .hunt false ∧ (s.port p).fifo = [] ∧ (s.port p).tx = none
      ∧ ∀ c, s.portCount p c = 0)
    ∧ s.queues.status = none ∧ s.queues.responses = [] ∧ s.queues.forward = []
    ∧ (∀ b, (s.branch b).command = none ∧ (s.branch b).passthrough = [])
    ∧ s.router.mapping = .straight ∧ s.router.crossCount = 0
    ∧ s.router.fromDA = false ∧ s.router.fromDB = false ∧ s.router.notCrossed = false
    ∧ s.timeBase = 0 ∧ s.cadence.state = .unlocked ∧ s.cadence.lockCount = 0 ∧ s.cadence.missCount = 0
    ∧ s.cadence.lastArrival = none ∧ s.cadence.lapse = none ∧ s.cadence.paceNext = some 4000
    ∧ s.engine.lastSeq = none ∧ s.engine.gseq = 0 ∧ s.engine.due = false ∧ s.engine.notices = []
    ∧ s.engine.nextBranch = .b0 ∧ s.engine.inFlight = none ∧ s.engine.lastStepStart = 0
    ∧ (∀ n, s.ctx n = Ctx.initial ∧ s.entry n = AxisEntry.initial ∧ s.contest n = none)
    ∧ (∀ r, s.rig r = RigEntry.initial ∧ Bank.at' s.dwell r = none)
    ∧ s.globals = Globals.initial ∧ (∀ k, Bank.at' s.lineTable k = LineEntry.initial)
    ∧ s.governor.state = .safe ∧ s.governor.causes = 0 ∧ s.governor.cadence = true ∧ s.governor.stuck = false
    ∧ (∀ l, (s.line l).accepted = (s.line l).pin ∧ (s.line l).noted = none)
    ∧ (∀ n, Bank.at' s.outputs.brk n = false) ∧ s.outputs.clearOut = true
    ∧ (∀ k, Bank.at' s.outputs.gl k = none)
    ∧ (∀ e, s.hasEvent e = decide (e = .powerUp)) ∧ ∀ c, s.count c = 0

/-- Every law of the part holds right after reset. The levels at the pins there, and the 0 that stands for the absent
p, v and t of an OFFLINE axis, are the model's choices (log 7, log 28). -/
def Obligations.LawsHoldAtReset : Prop := State.reset.Laws

/-! ## Encodings -/

/-- The octets that follow SYNC in a sent frame are collected as a whole frame and never earlier; the frame read
from them is the one sent, and the running CRC agrees with the two octets received (R5, R6, R9, R16, R20). -/
def Obligations.SentFramesAreReadBack : Prop :=
  ∀ f : Frame, f.payload.length ≤ 192 →
    let o := f.octets.tail
    f.octets.head? = some 0x55
      ∧ (∀ k, k < o.length → frameWhole (o.take k) = false)
      ∧ frameWhole o = true ∧ frameOf o = f ∧ crcReceived o = (crcOf f.covered).toNat
      ∧ o.foldl (fun m b => match m with
          | .receive got crc => collect got crc b
          | other => other) (RxMode.receive [] 0xFFFF) = .receive o (crcOf f.covered)

/-- A table entry in range is read back from the octets it is sent as; the octets have the entry length of its
table (R195). -/
def Obligations.TableEntriesRoundTrip : Prop :=
  (∀ e : AxisEntry, e.Valid → AxisEntry.decode e.encode = e ∧ e.encode.length = 32)
    ∧ (∀ e : RigEntry, e.Valid → RigEntry.decode e.encode = e ∧ e.encode.length = 13)
    ∧ (∀ g : Globals, g.Valid → Globals.decode g.encode = g ∧ g.encode.length = 12)
    ∧ ∀ e : LineEntry, e.Valid → LineEntry.decode e.encode = e ∧ e.encode.length = 4

/-! ## Laws that every step keeps -/

/-- BRK0 to BRK7, CLEAR_OUT and the general outputs stand at the levels their owners' states give after every
step, each level written out: BRKn by the state of axis n, CLEAR_OUT by the governor, chain_use and CLEAR_IN, a
general line by its function, its condition and invert (R99, R157, R165, R170 to R172, R175). -/
def Obligations.OutputsFollowKept : Prop :=
  ∀ s t : State, s.OutputsFollow → step s = .next t → t.OutputsFollow
    ∧ (∀ n, Bank.at' t.outputs.brk n = true ↔ t.resetLow = false
        ∧ (t.ctx n).state ≠ .offline ∧ (t.ctx n).state ≠ .standby ∧ (t.ctx n).state ≠ .locked)
    ∧ (t.outputs.clearOut = true ↔ t.resetLow = false ∧ t.governor.state ≠ .tripped
        ∧ (t.globals.chainUse = false ∨ (t.line .clearIn).accepted = true))
    ∧ ∀ k,
      let e := Bank.at' t.lineTable k
      let driven (condition : Bool) : Option Bool := some (if e.invert = true then !condition else condition)
      Bank.at' t.outputs.gl k =
        if t.resetLow = true then none
        else match e.fn with
          | .none => none
          | .rigHoldIn => none
          | .armKeyIn => none
          | .readyOut => driven (decide (t.governor.state = .armed))
          | .tripOut => driven (decide (t.governor.state = .tripped))
          | .eventOut => driven (decide (t.latch ≠ 0))
          | .motionOut => driven (Bank.at' t.motion e.arg)

/-- In SAFE every axis stays STANDBY or OFFLINE, outside SAFE none becomes STANDBY (R99, R103, R104). -/
def Obligations.ModesLawKept : Prop :=
  ∀ s t : State, s.ModesLaw → step s = .next t → t.ModesLaw

/-- An axis stays OFFLINE, empty and without a brake contest exactly while its entry is disabled (R62, R98, R102,
R166). That an empty context holds its absent p, v and t as 0 is the model's choice (log 28). -/
def Obligations.EnabledLawKept : Prop :=
  ∀ s t : State, s.EnabledLaw → step s = .next t → t.EnabledLaw

/-- The tables stay a set that passes every check of a write (R61, R65, R69 to R72, R170). -/
def Obligations.TablesLawKept : Prop :=
  ∀ s t : State, s.TablesLaw → step s = .next t → t.TablesLaw

/-- A filter holds a noted time exactly while its pin stands away from its accepted level, and each brake contest
judges its axis's permission and keeps its stuck flag and mismatch time as R166 to R168 say. The law while RESET_N
is low is the model's choice (log 13). -/
def Obligations.LinesAndContestsLawKept : Prop :=
  ∀ s t : State, s.LinesLaw → s.ContestsLaw → step s = .next t → t.LinesLaw ∧ t.ContestsLaw

/-- The four condition flags stay copies of the conditions, and the trip-cause set holds what R144 and R145 give:
nothing in SAFE and in ARMED, the active causes of the set flags in TRIPPED. -/
def Obligations.FlagsAndCausesLawKept : Prop :=
  ∀ s t : State, s.EnabledLaw → s.ContestsLaw → s.FlagsLaw → s.CausesLaw → step s = .next t →
    t.FlagsLaw ∧ t.CausesLaw

/-- From the taking of trip entry until the governor leaves TRIPPED no axis is in FOLLOW, RELEASING, PARKING or
RECOVERING (R125). -/
def Obligations.AfterTripLawKept : Prop :=
  ∀ s t : State, s.AfterTripLaw → step s = .next t → t.AfterTripLaw

/-- The lapse deadline is held exactly while LOCKED and the pace timer runs exactly while not LOCKED (R49, R52). -/
def Obligations.CadenceLawKept : Prop :=
  ∀ s t : State, s.CadenceLaw → step s = .next t → t.CadenceLaw

/-- No queue exceeds its capacity, passthrough is empty outside SAFE, U's transmitter is never free beside a waiting
frame, and, while no step is in flight, a drive port's never beside a waiting frame of the branch mapped to it (R17,
R19, R28, R30, R36, R39). -/
def Obligations.QueuesLawKept : Prop :=
  ∀ s t : State, s.QueuesLaw → step s = .next t → t.QueuesLaw

/-- The notice list holds at most one notice from each source (R54, R162, R173). -/
def Obligations.NoticesLawKept : Prop :=
  ∀ s t : State, s.NoticesLaw → step s = .next t → t.NoticesLaw

/-- A history ring never holds more than eight pairs; their step numbers are consecutive, oldest first, and end
with the last completed step (R130). -/
def Obligations.RingsLawKept : Prop :=
  ∀ s t : State, s.EnabledLaw → s.RingsLaw → step s = .next t → t.RingsLaw

/-- Every line stays inside its envelope with the reserve to stop in it, or recovers toward the bound it stands
beyond, within its speed limit, and a held line has no velocity (R85, R89, R93, R96, R97). The reserve is p plus the
run-out of v, as R85 keeps it; that R88 means this one is the model's reading (log 30). -/
def Obligations.MotionsLawKept : Prop :=
  ∀ s t : State, s.TablesLaw → s.ModesLaw → s.MotionsLaw → step s = .next t → t.MotionsLaw

/-- If any member of a rig is in FOLLOW, every member of that rig is (R109). -/
def Obligations.RigsLawKept : Prop :=
  ∀ s t : State, s.TablesLaw → s.ModesLaw → s.RigsLaw → step s = .next t → t.RigsLaw

/-- BRKn is high only while the governor is ARMED or TRIPPED and axis n is in one of the seven states with
permission on (the law of R99), in any state that keeps the laws of the outputs and of the modes. -/
def Obligations.BrakeOutputsNeedPermission : Prop :=
  ∀ (s : State) (n : AxisId), s.OutputsFollow → s.ModesLaw → Bank.at' s.outputs.brk n = true →
    (s.governor.state = .armed ∨ s.governor.state = .tripped)
      ∧ ((s.ctx n).state = .follow ∨ (s.ctx n).state = .dwelling ∨ (s.ctx n).state = .parking
        ∨ (s.ctx n).state = .recovering ∨ (∃ next o, (s.ctx n).state = .releasing next o)
        ∨ (∃ k, (s.ctx n).state = .stopping k) ∨ ∃ k, (s.ctx n).state = .holding k)

/-- The reserve as R88 writes it (p + v plus the run-out of v within hi) would be kept by one shaped step in
FOLLOW. It is not: R85 reserves p plus the run-out, as R85's own worked case shows (log 30). -/
def Obligations.ReserveAsR88WritesItIsKept : Prop :=
  ∀ (e : AxisEntry) (x : Ctx), e.Valid → x.inside e → x.v.natAbs ≤ e.vmax →
    (0 ≤ x.v → x.p + x.v + runOut x.v.toNat e.dmax ≤ e.hi) →
    let r := shapeFollow e none x
    0 ≤ r.v → r.p + r.v + runOut r.v.toNat e.dmax ≤ e.hi

/-! ## Rules over all commands -/

/-- The governor's state changes only as the transition table of Arming and Trips gives: SAFE to ARMED by ARM,
ARMED to TRIPPED with TRIP latched, a cause held and trip entry placed, TRIPPED to ARMED by RESET_TRIP, to SAFE by
DISARM or RESET_N (R146, R151 to R155); in any state whose condition flags are copies of the conditions. -/
def Obligations.GovernorTransitions : Prop :=
  ∀ (c : Instr) (s t : State), s.FlagsLaw → exec c s = .next t → t.governor.state ≠ s.governor.state →
    (s.governor.state = .safe ∧ t.governor.state = .armed ∧ c = .arm)
      ∨ (s.governor.state = .armed ∧ t.governor.state = .tripped ∧ t.hasEvent .trip = true
        ∧ Notice.tripEntry ∈ t.engine.notices ∧ t.governor.causes ≠ 0)
      ∨ (s.governor.state = .tripped ∧ t.governor.state = .armed ∧ c = .resetTrip)
      ∨ (t.governor.state = .safe ∧ (c = .disarm ∨ c = .resetNAssert
        ∨ ∃ u a b, c = .resetNRelease u a b))

/-- An event flag is cleared only by ACK_EVENTS and RESET_N; a global counter falls only at READ_COUNTERS and
RESET_N, a port counter also at PORT_RESET (R21, R182, R184). -/
def Obligations.FlagsAndCountsAreKept : Prop :=
  ∀ (c : Instr) (s t : State), exec c s = .next t → c ≠ .resetNAssert → (∀ u a b, c ≠ .resetNRelease u a b) →
    (c ≠ .ackEvents → ∀ e, s.hasEvent e = true → t.hasEvent e = true)
      ∧ (c ≠ .readCounters → ∀ k, s.count k ≤ t.count k)
      ∧ (c ≠ .readCounters → (∀ m, c ≠ .portReset m) → ∀ p k, s.portCount p k ≤ t.portCount p k)

/-- The events of the link, of time and of the lines leave the axis contexts, the rig runtimes and the tables as
they stand; while a step is in flight so does every command but its completion and RESET_N (R54, R56, R61). That a
step holds the engine until its completion command is the model's reading (log 14). -/
def Obligations.OnlyTheEngineChangesContexts : Prop :=
  ∀ (c : Instr) (s t : State), exec c s = .next t → c ≠ .resetNAssert → (∀ u a b, c ≠ .resetNRelease u a b) →
    (s.engine.inFlight = none →
      ((∃ p o m sp w, c = .receiveCharacter p o m sp w) ∨ (∃ p, c = .gap p) ∨ (∃ p, c = .longBreak p)
        ∨ (∃ p w, c = .returnToMark p w) ∨ (∃ p, c = .frameComplete p) ∨ (∃ p, c = .transmitComplete p)
        ∨ c = .paceTimerExpiry ∨ c = .lapseExpiry ∨ (∃ w, c = .stepCompletion w)
        ∨ (∃ l h w, c = .inputPinChange l h w) ∨ (∃ l, c = .inputAccepted l) ∨ (∃ n, c = .settleExpiry n)
        ∨ (∃ n, c = .mismatchExpiry n) ∨ ∃ p w, c = .falseStart p w) →
      t.axes = s.axes ∧ t.dwell = s.dwell ∧ t.axisTable = s.axisTable ∧ t.rigTable = s.rigTable
        ∧ t.globals = s.globals ∧ t.lineTable = s.lineTable)
      ∧ (s.engine.inFlight ≠ none → (∀ w, c ≠ .stepCompletion w) →
        t.axes = s.axes ∧ t.dwell = s.dwell ∧ t.axisTable = s.axisTable ∧ t.rigTable = s.rigTable
          ∧ t.globals = s.globals ∧ t.lineTable = s.lineTable)

/-- No command touches the queue of waiting commands; the branch mapping changes only at a step start, the station
address only at RESET_N, the tables only by WRITE_TABLE and RESET_N (R24, R31, R61); in any state whose straps have
no change noted (R160). -/
def Obligations.WhatOneCommandAloneChanges : Prop :=
  ∀ (c : Instr) (s t : State), s.LinesLaw → exec c s = .next t →
    t.pending = s.pending
      ∧ (c ≠ .resetNAssert → (∀ u a b, c ≠ .resetNRelease u a b) →
        t.station = s.station ∧ (c ≠ .stepStart → t.router.mapping = s.router.mapping)
          ∧ (c ≠ .writeTable → t.axisTable = s.axisTable ∧ t.rigTable = s.rigTable ∧ t.globals = s.globals
            ∧ t.lineTable = s.lineTable))

/-! ## RESET_N -/

/-- RESET_N: the assertion drives every output low and idles the links; while it is low nothing but the pins and the
two edges acts; the release leaves what R23, R40, R60, R98, R143, R161, R172, R176, R182 and R184 give, from the levels
at that moment. What holds while RESET_N is low is the model's choice (log 13), as are how a line at space is heard
afterwards (log 10), the 0 that stands for the last edge and stop times (log 9) and for the absent p, v and t of an
OFFLINE axis (log 28), and the interval-open flag (log 22). -/
def Obligations.ResetLineActs : Prop :=
  (∀ s : State, ∃ t, exec .resetNAssert s = .next t ∧ t.resetLow = true ∧ t.pending = s.pending
      ∧ (∀ n, Bank.at' t.outputs.brk n = false) ∧ t.outputs.clearOut = false
      ∧ (∀ k, Bank.at' t.outputs.gl k = none)
      ∧ (∀ p, (t.port p).tx = none ∧ (t.port p).fifo = [])
      ∧ ∀ l, (t.line l).pin = (s.line l).pin ∧ (t.line l).noted = none)
    ∧ (∀ (s : State) (u a b : Bool), s.resetLow = true → ∃ t, exec (.resetNRelease u a b) s = .next t
      ∧ t.resetLow = false ∧ t.pending = s.pending ∧ t.clock = 0
      ∧ (∀ p, let mark := match p with
            | .u => u
            | .da => a
            | .db => b
        (t.port p).rx = { mode := .hunt false, lastEdge := 0, lastStop := 0
                          idleFrom := if mark then some 0 else none, heldSpace := !mark }
          ∧ (t.port p).fifo = [] ∧ (t.port p).tx = none ∧ ∀ c, t.portCount p c = 0)
      ∧ (∀ l, (t.line l).pin = (s.line l).pin ∧ (t.line l).accepted = (s.line l).pin ∧ (t.line l).noted = none)
      ∧ t.governor = { state := .safe, causes := 0, stop := !(s.line .stopIn).pin, chain := false,
                       cadence := true, stuck := false }
      ∧ t.queues = Queues.initial
      ∧ t.router = { mapping := .straight, crossCount := 0, fromDA := false, fromDB := false, notCrossed := false
                     intervalOpen := false }
      ∧ t.cadence = { state := .unlocked, lockCount := 0, missCount := 0, lastArrival := none, lapse := none
                      paceNext := some 4000 }
      ∧ t.engine = { due := false, inFlight := none, gseq := 0, lastStepStart := 0, lastSeq := none, notices := []
                     nextBranch := .b0 }
      ∧ (∀ n, t.ctx n = Ctx.initial ∧ t.entry n = AxisEntry.initial ∧ t.contest n = none)
      ∧ (∀ r, t.rig r = RigEntry.initial ∧ Bank.at' t.dwell r = none ∧ Bank.at' t.motion r = false)
      ∧ t.globals = Globals.initial
      ∧ (∀ k, Bank.at' t.lineTable k = LineEntry.initial)
      ∧ (∀ n, Bank.at' t.outputs.brk n = false) ∧ t.outputs.clearOut = true
      ∧ (∀ k, Bank.at' t.outputs.gl k = none)
      ∧ (∀ e, t.hasEvent e = decide (e = .powerUp)) ∧ ∀ c, t.count c = 0)
    ∧ (∀ (s : State) (u a b : Bool), s.resetLow = false → exec (.resetNRelease u a b) s = .next s)
    ∧ (∀ (c : Instr) (s : State), s.resetLow = true → c ≠ .resetNAssert → (∀ u a b, c ≠ .resetNRelease u a b) →
      (∀ l h w, c ≠ .inputPinChange l h w) → exec c s = .next s)
    ∧ ∀ (l : LineId) (h : Bool) (w : Nat) (s : State), s.resetLow = true →
      ∃ t, exec (.inputPinChange l h w) s = .next t ∧ t.line l = { s.line l with pin := h }
        ∧ s.keepsLinesBut [l] t ∧ s.keepsBut [.lines] t

/-! ## The cue link -/

/-- RECEIVE_CHARACTER in HUNT, judged in the order of R7, with the rate check of R8; a gap that idle reached by the
start edge comes first (R4). What is sampled is an operand (log 6), the clock moves by the wait (log 2), the character
itself takes the overdue gap (log 12), and idle is measured from the stop bit whatever its level (log 33): the model's
choices. -/
def Obligations.CharacterInHunt : Prop :=
  ∀ (s : State) (p : PortId) (o : Byte) (stop : Bool) (span w : Nat) (gapSeen : Bool),
    let now := s.clock + BitVec.ofNat 50 w
    s.resetLow = false → (s.port p).rx.mode = .hunt gapSeen → (s.port p).rx.heldSpace = false →
    (¬ s.gapNotDue p (now - 10) →
      ∃ t, exec (.gap p) s = .next t ∧ (t.port p).rx.mode = .hunt true ∧ t.gapNotDue p (now - 10)
        ∧ ∃ z, exec (.receiveCharacter p o stop span (now - t.clock).toNat) t = .next z
          ∧ exec (.receiveCharacter p o stop span w) s = .next z)
    ∧ (s.gapNotDue p (now - 10) →
    let out : RxMode × List PortCounter :=
      if stop = false ∧ o = 0 then (.brk false, [])
      else if gapSeen = false then (.hunt false, [])
      else if stop = false then (.discard, [.framing])
      else if o ≠ 0x55 then (.discard, [])
      else if 2160 ≤ span ∧ span ≤ 2340 then (.receive [] 0xFFFF, [])
      else (.discard, [.rate])
    ∃ t, exec (.receiveCharacter p o stop span w) s = .next t ∧ t.clock = now
      ∧ (t.port p).rx = { mode := out.1, lastEdge := now - 10, lastStop := now,
                          idleFrom := if stop = false ∧ o = 0 then none else some now, heldSpace := false }
      ∧ s.keepsQueuesOf p t ∧ s.portCounts p out.2 t
      ∧ s.latches (if out.2 = [] then [] else [linkEvent s.router.mapping p]) t
      ∧ s.keepsBut [.clock, .port p, .latch, .outputs] t)

/-- RECEIVE_CHARACTER in RECEIVE, DISCARD and BREAK (R9, R10, R12, R14, R15); a gap that idle reached by the start
edge in RECEIVE or DISCARD comes first (R4). What is sampled is an operand (log 6), the clock moves by the wait (log
2), the character itself takes the overdue gap (log 12), and idle is measured from the stop bit whatever its level
(log 33): the model's choices. -/
def Obligations.CharacterInFrame : Prop :=
  ∀ (s : State) (p : PortId) (o : Byte) (stop : Bool) (span w : Nat),
    let now := s.clock + BitVec.ofNat 50 w
    s.resetLow = false → (s.port p).rx.heldSpace = false →
    ((s.port p).rx.listens = true → ¬ s.gapNotDue p (now - 10) →
      ∃ t, exec (.gap p) s = .next t ∧ (t.port p).rx.mode = .hunt true ∧ t.gapNotDue p (now - 10)
        ∧ ∃ z, exec (.receiveCharacter p o stop span (now - t.clock).toNat) t = .next z
          ∧ exec (.receiveCharacter p o stop span w) s = .next z)
    ∧ (s.gapNotDue p (now - 10) → ∀ got crc, (s.port p).rx.mode = .receive got crc → frameWhole got = false →
      let out : RxMode × List PortCounter :=
        if stop = false ∧ o = 0 then (.brk false, [.aborted])
        else if stop = false then (.discard, [.framing])
        else if got.length = 3 ∧ 192 < o.toNat then (.discard, [.tooLong])
        else (.receive (got ++ [o])
          (if got.length < 4 ∨ got.length < 4 + u8 got 3 then crcOctet crc o else crc), [])
      ∃ t, exec (.receiveCharacter p o stop span w) s = .next t ∧ t.clock = now
        ∧ (t.port p).rx = { mode := out.1, lastEdge := now - 10, lastStop := now,
                            idleFrom := if stop = false ∧ o = 0 then none else some now, heldSpace := false }
        ∧ s.keepsQueuesOf p t ∧ s.portCounts p out.2 t
        ∧ s.latches (if out.2 = [] then [] else [linkEvent s.router.mapping p]) t
        ∧ s.keepsBut [.clock, .port p, .latch, .outputs] t)
      ∧ (s.gapNotDue p (now - 10) → (s.port p).rx.mode = .discard →
        ∃ t, exec (.receiveCharacter p o stop span w) s = .next t ∧ t.clock = now
          ∧ (t.port p).rx = { mode := if stop = false ∧ o = 0 then .brk false else .discard,
                              lastEdge := now - 10, lastStop := now,
                              idleFrom := if stop = false ∧ o = 0 then none else some now, heldSpace := false }
          ∧ s.keepsQueuesOf p t ∧ s.portCounts p [] t ∧ s.keepsBut [.clock, .port p, .outputs] t)
      ∧ (∀ counted, (s.port p).rx.mode = .brk counted →
        ∃ t, exec (.receiveCharacter p o stop span w) s = .next t ∧ t.clock = now
          ∧ s.keepsBut [.clock, .outputs] t)

/-- GAP: a gap in RECEIVE counts SHORT, and from HUNT, RECEIVE and DISCARD the receiver stands in HUNT with the gap
seen flag set; idle that goes on makes no second gap. FALSE_START: idle is measured again from the return to mark, and
a gap that idle reached by the start edge, less than one bit time before, comes first (R3, R4, R7, R11, R12). How the
clock moves, that a GAP where no idle is measured leaves the state alone, and that a false start takes an overdue gap
are the model's choices (log 1, log 2, log 3, log 12). -/
def Obligations.GapsAndFalseStarts : Prop :=
  (∀ (s : State) (p : PortId) (from' : Ticks), s.resetLow = false → (s.port p).rx.idleFrom = some from' →
      (s.port p).rx.heldSpace = false → (∀ c, (s.port p).rx.mode ≠ .brk c) →
      (s.port p).rx.mode.awaitsJudgement = false →
      let out : List PortCounter := match (s.port p).rx.mode with
        | .receive _ _ => [.short]
        | _ => []
      ∃ t, exec (.gap p) s = .next t ∧ t.clock = s.clockAt (from' + 20)
        ∧ (t.port p).rx = { (s.port p).rx with mode := .hunt true, idleFrom := none }
        ∧ s.keepsQueuesOf p t ∧ s.portCounts p out t
        ∧ s.latches (if out = [] then [] else [linkEvent s.router.mapping p]) t
        ∧ s.keepsBut [.clock, .port p, .latch, .outputs] t)
    ∧ (∀ (s : State) (p : PortId), (s.port p).rx.idleFrom = none →
      ∃ t, exec (.gap p) s = .next t ∧ s.keepsBut [.outputs] t)
    ∧ ∀ (s : State) (p : PortId) (w : Nat), s.resetLow = false → (s.port p).rx.listens = true →
      let now := s.clock + BitVec.ofNat 50 w
      (s.gapNotDue p (now - 1) →
        ∃ t, exec (.falseStart p w) s = .next t ∧ t.clock = now
          ∧ (t.port p).rx = { (s.port p).rx with idleFrom := some now }
          ∧ s.keepsQueuesOf p t ∧ s.portCounts p [] t ∧ s.keepsBut [.clock, .port p, .outputs] t)
        ∧ (¬ s.gapNotDue p (now - 1) →
          ∃ t, exec (.gap p) s = .next t ∧ (t.port p).rx.mode = .hunt true ∧ t.gapNotDue p (now - 1)
            ∧ ∃ z, exec (.falseStart p (now - t.clock).toNat) t = .next z
              ∧ exec (.falseStart p w) s = .next z)

/-- LONG_BREAK counts at 80 µs from the leading edge, once, and on U raises the latched cause; RETURN_TO_MARK counts
BREAK for a break that has not counted LONG_BREAK and leaves HUNT with the flag clear; a line held at space through
a reset is only heard again (R15, R22, R23, R145). That a LONG_BREAK already counted leaves the state alone, how the
clock moves, and how a return to mark takes an overdue long break are the model's choices (log 1, log 2, log 3, log 10,
log 12). -/
def Obligations.BreaksAndReturns : Prop :=
  (∀ (s : State) (p : PortId), s.resetLow = false → (s.port p).rx.mode = .brk false →
      ∃ t, exec (.longBreak p) s = .next t ∧ t.clock = s.clockAt ((s.port p).rx.lastEdge + 320)
        ∧ (t.port p).rx = { (s.port p).rx with mode := .brk true }
        ∧ s.keepsQueuesOf p t ∧ s.portCounts p [.longBreak] t
        ∧ s.keepsBut [.clock, .port p, .latch, .outputs, .governor, .engine] t
        ∧ (p ≠ .u → s.latches [linkEvent s.router.mapping p] t ∧ s.keepsBut [.clock, .port p, .latch, .outputs] t)
        ∧ (p = .u → s.tripRaised .longBreak t ∧ s.keepsConditions t
          ∧ t.engine = { s.engine with notices := s.noticesAtTrip }
          ∧ s.latches (if s.governor.state = .armed then [.linkU, .trip] else [.linkU]) t))
    ∧ (∀ (s : State) (p : PortId), (s.port p).rx.mode = .brk true →
      ∃ t, exec (.longBreak p) s = .next t ∧ s.keepsBut [.outputs] t)
    ∧ ∀ (s : State) (p : PortId) (w : Nat),
      let now := s.clock + BitVec.ofNat 50 w
      let back : Receiver := { (s.port p).rx with mode := .hunt false, idleFrom := some now, heldSpace := false }
      s.resetLow = false →
      (∀ counted, (s.port p).rx.mode = .brk counted →
        (counted = false → reached ((s.port p).rx.lastEdge + 320) now = true →
          now = (s.port p).rx.lastEdge + 320) →
        ∃ t, exec (.returnToMark p w) s = .next t ∧ t.clock = now ∧ (t.port p).rx = back
          ∧ s.keepsQueuesOf p t ∧ s.portCounts p (if counted then [] else [.brk]) t
          ∧ s.latches (if counted then [] else [linkEvent s.router.mapping p]) t
          ∧ s.keepsBut [.clock, .port p, .latch, .outputs] t)
        ∧ ((s.port p).rx.mode = .brk false → reached ((s.port p).rx.lastEdge + 320) now = true →
          now ≠ (s.port p).rx.lastEdge + 320 →
          ∃ t, exec (.longBreak p) s = .next t ∧ (t.port p).rx.mode = .brk true
            ∧ ∃ z, exec (.returnToMark p (now - t.clock).toNat) t = .next z
              ∧ exec (.returnToMark p w) s = .next z)
        ∧ ((∀ c, (s.port p).rx.mode ≠ .brk c) → (s.port p).rx.heldSpace = true →
          ∃ t, exec (.returnToMark p w) s = .next t ∧ t.clock = now ∧ (t.port p).rx = back
            ∧ s.keepsQueuesOf p t ∧ s.portCounts p [] t ∧ s.keepsBut [.clock, .port p, .outputs] t)

/-- FRAME_COMPLETE: a frame whose CRC differs counts CRC; one whose CRC agrees counts GOOD and joins the FIFO with
its arrival time, or counts OVERRUN when four are held; as a new head it is judged at once, and one that is not for the
engine is routed: counted UNROUTED, forwarded or dropped with FWD_DROP, put in its branch's passthrough or dropped with
PASS_BLOCKED (R16, R17, R25 to R27, R29, R30). -/
def Obligations.FrameCompletion : Prop :=
  ∀ (s : State) (p : PortId) (o : List Byte) (crc : BitVec 16), s.resetLow = false →
    (s.port p).rx.mode = .receive o crc → frameWhole o = true →
    let r : Received := { frame := frameOf o, arrival := microsOf (s.port p).rx.lastStop }
    let fifo := (s.port p).fifo
    ∃ t, exec (.frameComplete p) s = .next t ∧ (t.port p).rx = { (s.port p).rx with mode := .hunt false }
      ∧ (crc.toNat ≠ crcReceived o →
        s.keepsQueuesOf p t ∧ s.portCounts p [.crc] t ∧ s.latches [linkEvent s.router.mapping p] t
          ∧ s.keepsBut [.port p, .latch, .outputs] t)
      ∧ (crc.toNat = crcReceived o → 4 ≤ fifo.length →
        s.keepsQueuesOf p t ∧ s.portCounts p [.good, .overrun] t ∧ s.latches [linkEvent s.router.mapping p] t
          ∧ s.keepsBut [.port p, .latch, .outputs] t)
      ∧ (crc.toNat = crcReceived o → fifo ≠ [] → fifo.length < 4 →
        (t.port p).fifo = fifo ++ [r] ∧ (t.port p).tx = (s.port p).tx ∧ s.portCounts p [.good] t
          ∧ s.keepsBut [.port p, .outputs] t)
      ∧ (crc.toNat = crcReceived o → fifo = [] → s.judgeHead p r.frame = .engine →
        (t.port p).fifo = [r] ∧ (t.port p).tx = (s.port p).tx ∧ s.portCounts p [.good] t
          ∧ s.keepsBut [.port p, .outputs] t)
      ∧ (crc.toNat = crcReceived o → fifo = [] → s.judgeHead p r.frame ≠ .engine →
        let taken := ((s.setRx p { (s.port p).rx with mode := .hunt false }).bumpPort p .good).setFifo p [r]
        let busy (q : PortId) : Prop := (s.port q).tx ≠ none
        t = (taken.route p).drive
          ∧ (t.port p).fifo = [] ∧ s.portCounts p [.good] t
          ∧ s.keepsBut [.port .u, .port .da, .port .db, .queues, .counters, .outputs] t
          ∧ (s.judgeHead p r.frame = .unrouted →
            s.counts [.unrouted] t ∧ s.keepsBut [.port p, .counters, .outputs] t)
          ∧ (s.judgeHead p r.frame = .forward →
            (4 ≤ s.queues.forward.length → s.counts [.fwdDrop] t ∧ s.keepsBut [.port p, .counters, .outputs] t)
              ∧ (s.queues.forward.length < 4 → busy .u → s.counts [] t
                ∧ t.queues = { s.queues with forward := s.queues.forward ++ [r.frame] }
                ∧ s.keepsBut [.port p, .queues, .outputs] t))
          ∧ ∀ b, s.judgeHead p r.frame = .passthrough b →
            (s.governor.state ≠ .safe ∨ 4 ≤ (s.branch b).passthrough.length →
              s.counts [.passBlocked] t ∧ s.keepsBut [.port p, .counters, .outputs] t)
              ∧ (s.governor.state = .safe → (s.branch b).passthrough.length < 4 → busy (portOf s.router.mapping b) →
                s.counts [] t ∧ (t.branch b).passthrough = (s.branch b).passthrough ++ [r.frame]
                  ∧ (t.branch b).command = (s.branch b).command
                  ∧ t.branch (otherBranch b) = s.branch (otherBranch b)
                  ∧ s.keepsBut [.port p, .queues, .outputs] t))

/-- TRANSMIT_COMPLETE: at the end of the trailing gap the transmitter is free and its arbiter chooses: on U the
status slot, then the responses, then the forwarded frames; on a drive port the command slot of its branch, then its
passthrough (R19, R31, R37, R39). How the clock moves is the model's choice (log 2, log 3). -/
def Obligations.TransmitCompletion : Prop :=
  ∀ (s : State) (p : PortId) (x : Sending), s.resetLow = false → (s.port p).tx = some x →
    ∃ t, exec (.transmitComplete p) s = .next t ∧ t.clock = s.clockAt x.freeAt
      ∧ (t.port p).rx = (s.port p).rx ∧ (t.port p).fifo = (s.port p).fifo ∧ s.portCounts p [] t
      ∧ s.keepsBut [.clock, .port p, .queues, .outputs] t
      ∧ (p = .u →
        t.u.tx = (s.queues.status.toList ++ s.queues.responses ++ s.queues.forward).head?.map
            (sendingOf · (s.clockAt x.freeAt))
          ∧ t.queues.status = none
          ∧ t.queues.responses = (if s.queues.status = none then s.queues.responses.tail else s.queues.responses)
          ∧ t.queues.forward = (if s.queues.status = none ∧ s.queues.responses = [] then s.queues.forward.tail
              else s.queues.forward)
          ∧ t.queues.b0 = s.queues.b0 ∧ t.queues.b1 = s.queues.b1)
      ∧ (∀ b, branchOn s.router.mapping p = some b →
        (t.port p).tx = ((s.branch b).command.toList ++ (s.branch b).passthrough).head?.map
            (sendingOf · (s.clockAt x.freeAt))
          ∧ (t.branch b).command = none
          ∧ (t.branch b).passthrough = (if (s.branch b).command = none then (s.branch b).passthrough.tail
              else (s.branch b).passthrough)
          ∧ t.branch (otherBranch b) = s.branch (otherBranch b)
          ∧ t.queues.status = s.queues.status ∧ t.queues.responses = s.queues.responses
          ∧ t.queues.forward = s.queues.forward)

/-- The router's judgement: the tables of R26 and R29; frames leave the FIFO from its head up to the first that is
work for the engine; a lone frame is dropped with its count or placed as R27 and R30 give, and a free transmitter
starts what its queues then offer first (R19, R37, R39). -/
def Obligations.RoutingFromTheHead : Prop :=
  (∀ (s : State) (f : Frame), f.addr = s.station →
      s.judgeU f = (if f.kind = 0x10 ∨ f.kind = 0x20 then .engine else .unrouted)
        ∧ s.judgeDrive f = (if f.kind = 0x12 then .engine else .unrouted))
    ∧ (∀ (s : State) (f : Frame), f.addr ≠ s.station →
      (∀ n, s.TablesLaw → (s.entry n).drive ≠ 0 → (s.entry n).drive = f.addr.toNat →
          s.judgeU f = .passthrough (s.entry n).branch)
        ∧ ((∀ n, (s.entry n).drive ≠ 0 → (s.entry n).drive ≠ f.addr.toNat) → s.judgeU f = .unrouted)
        ∧ s.judgeDrive f = if f.addr = 0x00 then .forward else .unrouted)
    ∧ (∀ (s : State) (p : PortId), ∃ gone, (s.port p).fifo = gone ++ ((s.route p).port p).fifo
      ∧ (∀ r ∈ gone, s.judgeHead p r.frame ≠ .engine)
      ∧ (∀ r ∈ ((s.route p).port p).fifo.head?, s.judgeHead p r.frame = .engine)
      ∧ s.keepsBut [.port .u, .port .da, .port .db, .queues, .counters] (s.route p))
    ∧ ∀ (s : State) (p : PortId) (r : Received), (s.port p).fifo = [r] →
      (s.judgeHead p r.frame = .unrouted →
        s.counts [.unrouted] (s.route p) ∧ s.keepsBut [.port p, .counters] (s.route p))
        ∧ (s.judgeHead p r.frame = .forward →
          (4 ≤ s.queues.forward.length →
            s.counts [.fwdDrop] (s.route p) ∧ s.keepsBut [.port p, .counters] (s.route p))
          ∧ (s.queues.forward.length < 4 → s.u.tx ≠ none →
            (s.route p).queues = { s.queues with forward := s.queues.forward ++ [r.frame] }
              ∧ s.keepsBut [.port p, .queues] (s.route p))
          ∧ (s.queues.forward.length < 4 → s.u.tx = none →
            let forward := s.queues.forward ++ [r.frame]
            (s.route p).u.tx = (s.queues.status.toList ++ s.queues.responses ++ forward).head?.map
                (sendingOf · s.clock)
              ∧ (s.route p).queues = { s.queues with
                  status := none
                  responses := if s.queues.status = none then s.queues.responses.tail else s.queues.responses
                  forward := if s.queues.status = none ∧ s.queues.responses = [] then forward.tail else forward }
              ∧ s.keepsBut [.port p, .port .u, .queues] (s.route p)))
        ∧ ∀ b, s.judgeHead p r.frame = .passthrough b →
          (s.governor.state ≠ .safe ∨ 4 ≤ (s.branch b).passthrough.length →
            s.counts [.passBlocked] (s.route p) ∧ s.keepsBut [.port p, .counters] (s.route p))
          ∧ (s.governor.state = .safe → (s.branch b).passthrough.length < 4 →
            (s.port (portOf s.router.mapping b)).tx ≠ none →
            ((s.route p).branch b).passthrough = (s.branch b).passthrough ++ [r.frame]
              ∧ ((s.route p).branch b).command = (s.branch b).command
              ∧ (s.route p).branch (otherBranch b) = s.branch (otherBranch b)
              ∧ s.keepsBut [.port p, .queues] (s.route p))
          ∧ (s.governor.state = .safe → (s.branch b).passthrough.length < 4 →
            (s.port (portOf s.router.mapping b)).tx = none →
            let waiting := (s.branch b).passthrough ++ [r.frame]
            ((s.route p).port (portOf s.router.mapping b)).tx
                = ((s.branch b).command.toList ++ waiting).head?.map (sendingOf · s.clock)
              ∧ (s.route p).branch b = { command := none
                                         passthrough := if (s.branch b).command = none then waiting.tail else waiting }
              ∧ (s.route p).branch (otherBranch b) = s.branch (otherBranch b)
              ∧ (s.route p).queues.status = s.queues.status ∧ (s.route p).queues.responses = s.queues.responses
              ∧ (s.route p).queues.forward = s.queues.forward
              ∧ s.keepsBut [.port p, .port (portOf s.router.mapping b), .queues] (s.route p))

/-! ## Cadence -/

/-- PACE_TIMER_EXPIRY makes a step due and sets the next expiry one period on; LAPSE_EXPIRY leaves LOCKED, starts
the pace timer from its own time, and raises the cadence condition (R49, R50, R51, R52, R149). How the clock moves,
and that a timer which never runs answers the state itself, are the model's choices (log 1 to log 3). -/
def Obligations.TimerExpiries : Prop :=
  (∀ (s : State) (τ : Micros), s.resetLow = false → s.cadence.paceNext = some τ →
      ∃ t, exec .paceTimerExpiry s = .next t ∧ t.clock = s.clockAt (ticksOf τ)
        ∧ t.cadence = { s.cadence with paceNext := some (addMicros τ s.globals.P) }
        ∧ t.engine = { s.engine with due := true }
        ∧ s.keepsBut [.clock, .cadence, .engine, .outputs] t)
    ∧ (∀ s : State, s.cadence.paceNext = none →
      ∃ t, exec .paceTimerExpiry s = .next t ∧ s.keepsBut [.outputs] t)
    ∧ (∀ (s : State) (τ : Micros), s.resetLow = false → s.cadence.state = .locked → s.cadence.lapse = some τ →
      s.governor.cadence = false →
      ∃ t, exec .lapseExpiry s = .next t ∧ t.clock = s.clockAt (ticksOf τ)
        ∧ t.cadence = { s.cadence with
            state := .unlocked, lockCount := 0, missCount := 0, lapse := none,
            paceNext := some (addMicros τ s.globals.P) }
        ∧ t.engine = { s.engine with
            due := true
            notices := if s.governor.state = .armed then placeOnce .tripEntry s.engine.notices
              else s.engine.notices }
        ∧ t.governor = { s.governor with
            state := t.governor.state, causes := t.governor.causes, cadence := true }
        ∧ s.tripRaised .cadence t
        ∧ s.latches (if s.governor.state = .armed then [.cadence, .trip] else [.cadence]) t
        ∧ s.keepsBut [.clock, .cadence, .engine, .governor, .latch, .outputs] t)
    ∧ ∀ s : State, s.cadence.state ≠ .locked → ∃ t, exec .lapseExpiry s = .next t ∧ s.keepsBut [.outputs] t

/-- What the cadence monitor makes of an accepted setpoint in each of its states, by whether the interval from the
last arrival differs from P by no more than W (R45 to R48, R50 to R52, R149). The miss count left by a loss of lock
and the first expiry of a pace timer whose time has passed are the model's readings (log 4, log 15, log 16). -/
def Obligations.CadenceJudgement : Prop :=
  ∀ (s : State) (a : Micros),
    let g := s.globals
    let t := s.judgeCadence a
    let deadline := addMicros a (g.L * g.P)
    (s.cadence.state = .unlocked → s.governor.cadence = true →
      t.cadence = { s.cadence with state := .locking, lockCount := 0, lastArrival := some a }
        ∧ s.latches [.cadence] t ∧ s.keepsBut [.cadence, .latch] t)
      ∧ ∀ last : Micros, s.cadence.lastArrival = some last →
        let c := { s.cadence with lastArrival := some a }
        let good : Prop := g.P ≤ (a - last).toNat + g.W ∧ (a - last).toNat ≤ g.P + g.W
        (s.cadence.state = .locking → s.governor.cadence = true →
          (¬ good → t.cadence = { c with lockCount := 0 } ∧ s.keepsBut [.cadence] t)
            ∧ (good → c.lockCount + 1 < g.nLock →
              t.cadence = { c with lockCount := c.lockCount + 1 } ∧ s.keepsBut [.cadence] t)
            ∧ (good → g.nLock ≤ c.lockCount + 1 →
              t.cadence = { c with
                  state := .locked, lockCount := c.lockCount + 1, missCount := 0, lapse := some deadline,
                  paceNext := none }
                ∧ t.engine = { s.engine with due := true }
                ∧ t.governor = { s.governor with
                    cadence := false
                    causes := if s.governor.state = .safe then s.governor.causes
                      else causeDrop s.governor.causes .cadence }
                ∧ s.latches [.cadence] t ∧ s.keepsBut [.cadence, .engine, .governor, .latch] t))
          ∧ (s.cadence.state = .locked → s.governor.cadence = false →
            (good → t.cadence = { c with missCount := 0, lapse := some deadline }
              ∧ t.engine = { s.engine with due := true } ∧ s.keepsBut [.cadence, .engine] t)
              ∧ (¬ good → c.missCount + 1 < g.J →
                t.cadence = { c with missCount := c.missCount + 1, lapse := some deadline }
                  ∧ t.engine = { s.engine with due := true } ∧ s.counts [.jitter] t
                  ∧ s.keepsBut [.cadence, .engine, .counters] t)
              ∧ (¬ good → g.J ≤ c.missCount + 1 →
                let first := addMicros s.engine.lastStepStart g.P
                let passed := reachedMicros first s.timeBase
                t.cadence = { c with
                    state := .locking, lockCount := 0, missCount := c.missCount + 1, lapse := none,
                    paceNext := some (if passed then addMicros first g.P else first) }
                  ∧ t.engine = { s.engine with
                      due := s.engine.due || passed
                      notices := if s.governor.state = .armed then placeOnce .tripEntry s.engine.notices
                        else s.engine.notices }
                  ∧ t.governor = { s.governor with
                      state := t.governor.state, causes := t.governor.causes, cadence := true }
                  ∧ s.tripRaised .cadence t ∧ s.counts [.jitter] t
                  ∧ s.latches (if s.governor.state = .armed then [.cadence, .trip] else [.cadence]) t
                  ∧ s.keepsBut [.cadence, .engine, .governor, .latch, .counters] t))

/-- TAKE_SETPOINT: a payload that fails its form counts BAD_SETPOINT, a repeated SEQ counts DUPLICATE, and neither
does anything else; an accepted setpoint stores its SEQ and the targets of axes in FOLLOW, counts a gap in SEQ, and
is judged for cadence (R42 to R45). That the frames behind are judged after the taking is the model's reading (log
5). -/
def Obligations.SetpointTaken : Prop :=
  (∀ o : List Byte, setpointForm o = true ↔
      o ≠ [] ∧ 1 ≤ u8 o 0 ∧ u8 o 0 ≤ 8 ∧ o.length = 1 + 5 * u8 o 0
        ∧ (∀ k, k < u8 o 0 → u8 o (1 + 5 * k) ≤ 7)
        ∧ ∀ j, j < u8 o 0 → ∀ k, k < j → u8 o (1 + 5 * j) ≠ u8 o (1 + 5 * k))
    ∧ ∀ (s : State) (r : Received), s.resetLow = false → s.arbiter = some (.console r) → r.frame.kind = 0x10 →
      let o := r.frame.payload
      let c := s.judgeCadence r.arrival
      ∃ t, exec .takeSetpoint s = .next t ∧ s.routesBehind t ∧ (s.QueuesLaw → s.passesBehind t) ∧ t.u.tx = s.u.tx
        ∧ t.queues.responses = s.queues.responses
        ∧ (setpointForm o = false → s.countsBehind [.badSetpoint] t ∧ s.keepsBeyondLink [] t)
        ∧ (setpointForm o = true → s.engine.lastSeq = some r.frame.seq →
          s.countsBehind [.duplicate] t ∧ s.keepsBeyondLink [] t)
        ∧ (setpointForm o = true → s.engine.lastSeq ≠ some r.frame.seq →
          s.countsBehind ((if s.engine.lastSeq.any (fun last => r.frame.seq ≠ last + 1) then [.seqGap] else [])
              ++ (if c.count .jitter = s.count .jitter then [] else [.jitter])) t
            ∧ (∀ n k, k < u8 o 0 → u8 o (1 + 5 * k) = n.val → (s.ctx n).state = .follow →
              t.ctx n = { s.ctx n with t := s32 o (2 + 5 * k) })
            ∧ (∀ n, ((s.ctx n).state ≠ .follow ∨ ∀ k, k < u8 o 0 → u8 o (1 + 5 * k) ≠ n.val) →
              t.ctx n = s.ctx n)
            ∧ t.engine = { c.engine with lastSeq := some r.frame.seq } ∧ t.cadence = c.cadence
            ∧ t.governor = c.governor ∧ t.latch = c.latch
            ∧ s.keepsBeyondLink [.axes, .engine, .cadence, .governor, .latch] t)

/-! ## Steps -/

/-- STEP_START: the due step is taken with its source and start time, GSEQ counts on, the closing interval is judged
for crossing, report-fresh flags clear and lapse counts grow; then every axis advances, the contests of changed
permissions restart and the dwells run, count down and start. Report lapses, in ascending axis index, and then rig
skews are raised first, and the advance is that of the states they leave: a lapse on an axis that an earlier one of the
same step start has stopped, locked or taken over is recorded only and does not escalate (R33, R51, R57, R58, R80,
R119, R135, R137, R139, R166). The interval-open flag, the whole advance at the step's start, and that each cause acts
by the governor's state as it then stands, are the model's (log 14, log 17, log 22). -/
def Obligations.StepStart : Prop :=
  ∀ s : State, s.resetLow = false → s.arbiter = some .step → s.TablesLaw → s.FlagsLaw → s.ContestsLaw →
    let lapse (n : AxisId) : Nat :=
      if (s.ctx n).state = .offline ∨ (s.ctx n).fresh = true then (s.ctx n).lapse else min 255 ((s.ctx n).lapse + 1)
    let lapses (n : AxisId) : Prop := (s.ctx n).state ≠ .offline ∧ (s.ctx n).fresh = false
      ∧ s.globals.reportLapse ≤ lapse n ∧ (s.ctx n).holds .reportLost = false
    let judged (r : RigId) : Prop := (s.rig r).members ≠ [] ∧ ∀ m ∈ (s.rig r).members,
      (s.ctx m).state = .follow ∧ (s.ctx m).fresh = true
        ∧ (s.ctx m).lastFollow.map FollowError.gseq = some s.engine.gseq
    let skewed (r : RigId) : Prop := judged r ∧ ∃ a ∈ (s.rig r).members, ∃ b ∈ (s.rig r).members,
      ∃ ea ∈ (s.ctx a).lastFollow, ∃ eb ∈ (s.ctx b).lastFollow, ((s.rig r).skewTol : Int) < ea.error - eb.error
    let auto : Prop := s.governor.state = .safe ∧ s.globals.swapAuto = true
    let crossed : Bool := s.router.intervalOpen && s.router.fromDA && s.router.fromDB && !s.router.notCrossed
    let flips : Prop := auto ∧ crossed = true ∧ s.router.crossCount + 1 = 4
    let begun : State := { s with
      engine := { s.engine with gseq := s.engine.gseq + 1 }
      axes := Bank.mapIdx (fun n (x : Ctx) => { x with lapse := lapse n }) s.axes }
    let raiseLapse (j : State × List AxisId) (n : AxisId) : State × List AxisId :=
      let x := j.1.ctx n
      let acts : Bool := j.1.governor.state = .armed && (x.faultRow.target).isSome
      if ¬ lapses n then j
      else if n ∈ j.2 then (j.1.setCtx n (x.record .reportLost (s.engine.gseq + 1)), j.2)
      else (j.1.raiseAlone n .reportLost, if acts then n :: s.others n ++ j.2 else j.2)
    let raiseSkew (u : State) (r : RigId) : State :=
      match (s.rig r).members with
      | [] => u
      | lead :: _ => if skewed r ∧ (s.ctx lead).holds .rigSkew = false then u.raiseAlone lead .rigSkew else u
    let advancedFrom (u t : State) : Prop :=
      (∀ n, t.ctx n = { u.advanced n with fresh := false, lapse := lapse n })
        ∧ u.contestsRestart t
        ∧ (∀ r,
          let members := (s.rig r).members
          let starts : Option Nat :=
            if members.any (fun m => (t.ctx m).state = .dwelling)
                ∧ members.all (fun m => (t.ctx m).state.code ≠ 5) then some (s.rig r).dwell
            else none
          Bank.at' t.dwell r = match Bank.at' s.dwell r with
            | some k => if 1 < k then some (k - 1) else starts
            | none => starts)
        ∧ (∀ c, t.count c = if ∃ n, c = .targetClamped n ∧ (u.ctx n).state = .follow
            ∧ ((u.ctx n).t < (s.entry n).lo ∨ ((s.entry n).hi : Int) < (u.ctx n).t)
          then satInc (s.count c) else s.count c)
        ∧ t.engine.notices = u.engine.notices ∧ t.governor = u.governor
        ∧ (∀ e, e ≠ .swap → t.hasEvent e = u.hasEvent e)
        ∧ s.keepsBut [.engine, .router, .latch, .axes, .dwell, .contests, .governor, .counters, .outputs] t
    ∃ t, exec .stepStart s = .next t
      ∧ t.engine.due = false ∧ t.engine.gseq = s.engine.gseq + 1 ∧ t.engine.lastStepStart = s.timeBase
      ∧ t.engine.inFlight = some (if s.cadence.state = .locked then .setpoint else .timer)
      ∧ t.engine.lastSeq = s.engine.lastSeq ∧ t.engine.nextBranch = s.engine.nextBranch
      ∧ (∀ n, (t.ctx n).fresh = false ∧ (t.ctx n).lapse = lapse n)
      ∧ (¬ auto → t.router = s.router)
      ∧ (auto → t.router =
        { mapping := if crossed && s.router.crossCount + 1 == 4 then s.router.mapping.flip else s.router.mapping
          crossCount := if crossed && s.router.crossCount + 1 != 4 then s.router.crossCount + 1 else 0
          fromDA := false, fromDB := false, notCrossed := false, intervalOpen := true })
      ∧ (flips → t.hasEvent .swap = true) ∧ (¬ flips → t.hasEvent .swap = s.hasEvent .swap)
      ∧ (∀ n, lapses n → s.rigOf n = none → (s.ctx n).fault = none →
        (t.ctx n).fault = some { cause := .reportLost, step := s.engine.gseq + 1, position := (s.ctx n).p })
      ∧ (∀ r lead rest, (s.rig r).members = lead :: rest → skewed r → (∀ n, ¬ lapses n) →
        (s.ctx lead).fault = none → (s.ctx lead).holds .rigSkew = false →
        (t.ctx lead).fault = some { cause := .rigSkew, step := s.engine.gseq + 1, position := (s.ctx lead).p })
      ∧ ((∀ n, ¬ lapses n) → (∀ r, ¬ skewed r) → advancedFrom s t)
      ∧ (∀ n, (∀ m, lapses m ↔ m = n) → (∀ r, ¬ skewed r) → advancedFrom (begun.raiseAlone n .reportLost) t)
      ∧ (∀ r lead rest, (s.rig r).members = lead :: rest → (∀ n, ¬ lapses n) → (∀ q, skewed q ↔ q = r) →
        (s.ctx lead).holds .rigSkew = false → advancedFrom (begun.raiseAlone lead .rigSkew) t)
      ∧ advancedFrom (allRigs.foldl raiseSkew (allAxes.foldl raiseLapse (begun, [])).1) t
      ∧ (∀ r, ∀ a ∈ (s.rig r).members, ∀ b ∈ (s.rig r).members, a < b → lapses a → lapses b →
        (∀ m, lapses m → m ∈ (s.rig r).members ∧ a ≤ m) → (∀ q, ¬ skewed q) → s.governor.state = .armed →
        (s.ctx a).state = .follow → (s.ctx b).state = .follow → (s.ctx a).fault = none → (s.ctx b).fault = none →
        (t.ctx a).fault = some { cause := .reportLost, step := s.engine.gseq + 1, position := (s.ctx a).p }
          ∧ (t.ctx b).fault = some { cause := .rigMember, step := s.engine.gseq + 1, position := (s.ctx b).p }
          ∧ (t.ctx b).later = laterAdd (s.ctx b).later .reportLost
          ∧ t.governor = s.governor ∧ t.hasEvent .trip = s.hasEvent .trip)

/-- What the advance of a step does to an axis that is not shaped: the stop ramp, coming to rest, the settle count,
the dwell and its end (R58, R78, R94, R97, R117, R118, R120). -/
def Obligations.AdvanceOfUnshapedStates : Prop :=
  ∀ (s : State) (n : AxisId),
    let x := s.ctx n
    let e := s.entry n
    let a := s.advanced n
    let quiet : Ctx := { x with clamped := false, scaled := false, lookahead := false }
    (x.state = .offline → a = x)
      ∧ (x.state = .standby ∨ x.state = .locked ∨ x.state.code = 3 → a = quiet)
      ∧ (∀ k, x.state = .holding k →
        a = { quiet with state := if k ≤ 1 then .locked else .holding (k - 1) })
      ∧ (∀ kind, x.state = .stopping kind →
        let d : Int := match kind with
          | .fault => e.dstop
          | .normal => e.dmax
        let v : Int := if d < x.v then x.v - d else if x.v < -d then x.v + d else 0
        let dwells : Prop := kind = .fault ∧ (∃ r, s.rigOf n = some r ∧ (s.rig r).profile = .stopDwellPark)
          ∧ s.governor.state = .armed ∧ (e.lo : Int) ≤ x.p ∧ x.p ≤ e.hi
        (v ≠ 0 → a = { quiet with p := x.p + v, v := v })
          ∧ (v = 0 → dwells → a = { quiet with v := 0, state := .dwelling })
          ∧ (v = 0 → ¬ dwells → a = { quiet with v := 0, state := .holding e.settle }))
      ∧ (x.state = .dwelling →
        let ends : Prop := ∃ r, s.rigOf n = some r ∧ ∃ k ∈ Bank.at' s.dwell r, k ≤ 1
        (¬ ends → a = quiet)
          ∧ (ends → s.governor.state ≠ .armed → a = { quiet with state := .holding e.settle })
          ∧ (ends → s.governor.state = .armed → ∀ k : Nat, e.park = some k →
            a = { quiet with state := .parking, t := k }))

/-- What the advance of a step does to a shaped axis in a valid table: p moves by the new velocity, which keeps to
the limit and to the rate bounds; the flags tell what bit; arrival at park or at the bound ends in HOLDING; in PARKING
and RECOVERING stages 3 to 6 are those of R82 to R86 with park or the bound as the target (R80 to R87, R89 to R93). -/
def Obligations.AdvanceOfShapedStates : Prop :=
  ∀ (s : State) (n : AxisId), s.TablesLaw → s.MotionsLaw →
    let x := s.ctx n
    let e := s.entry n
    let a := s.advanced n
    let moves (limit : Nat) : Prop := a.p = x.p + a.v ∧ a.v.natAbs ≤ limit
      ∧ a.v ≤ max 0 x.v + (if 0 ≤ x.v then e.amax else e.dmax)
      ∧ min 0 x.v - (if x.v ≤ 0 then (e.amax : Int) else e.dmax) ≤ a.v
      ∧ (0 < x.v → x.v - e.dmax ≤ a.v) ∧ (x.v < 0 → a.v ≤ x.v + e.dmax)
    let fraction (m : AxisId) : Nat :=
      let r : Int := match (s.entry m).park with
        | some k => k - (s.ctx m).p
        | none => 0
      if r.natAbs ≤ (s.entry m).crawl then 16777216 else 16777216 * (s.entry m).crawl / r.natAbs
    let stages (target asked above below : Int) (scaled : Bool) : Prop :=
      let lower : Int := if 0 < x.v then x.v - e.dmax else x.v - e.amax
      let upper : Int := if x.v < 0 then x.v + e.dmax else x.v + e.amax
      let c : Int := max lower (min asked upper)
      let bites : Prop := (0 < c ∧ above < x.p + c + runOut c.toNat e.dmax)
        ∨ (c < 0 ∧ x.p + c - runOut (-c).toNat e.dmax < below)
      let left (w : Int) (lookahead : Bool) : Ctx :=
        { x with
          state := if x.p + w = target ∧ w = 0 then .holding e.settle else x.state
          p := x.p + w, v := w, t := target, clamped := false, scaled := scaled, lookahead := lookahead }
      (¬ bites → a = left c false)
        ∧ (bites → 0 < c → a = left (max 0 (x.v - e.dmax)) true)
        ∧ (bites → c < 0 → a = left (min 0 (x.v + e.dmax)) true)
    (x.state = .follow →
      moves e.vmax ∧ a.state = .follow
        ∧ (a.clamped = true ↔ x.t < e.lo ∨ (e.hi : Int) < x.t)
        ∧ a.t = (if x.t < e.lo then (e.lo : Int) else if (e.hi : Int) < x.t then e.hi else x.t)
        ∧ (a.scaled = true → ∃ r, s.rigOf n = some r ∧ (s.rig r).proportional = true)
        ∧ (x.p = x.t → x.v = 0 → a.p = x.p ∧ a.v = 0))
      ∧ (∀ k : Nat, e.park = some k → x.state = .parking →
        moves e.crawl ∧ a.t = k ∧ a.clamped = false
          ∧ (a.p = k ∧ a.v = 0 → a.state = .holding e.settle) ∧ (¬ (a.p = k ∧ a.v = 0) → a.state = .parking)
          ∧ (let above : Int := if x.p ≤ k then k else e.hi
            let below : Int := if (k : Int) ≤ x.p then k else e.lo
            ((∀ r ∈ s.rigOf n, (s.rig r).proportional = false) →
              stages k (max (-(e.crawl : Int)) (min (k - x.p) e.crawl)) above below false)
              ∧ ∀ r ∈ s.rigOf n, (s.rig r).proportional = true →
                ∀ f ∈ (((s.rig r).members.filter fun m => (s.ctx m).state = .parking).map fraction).min?,
                  stages k (Int.tdiv ((k - x.p) * f) 16777216) above below (decide (f < 16777216))))
      ∧ (x.state = .recovering →
        let b : Int := if (e.hi : Int) ≤ x.p then e.hi else e.lo
        moves e.crawl ∧ a.t = b ∧ a.clamped = false ∧ a.scaled = false
          ∧ (a.p = b ∧ a.v = 0 → a.state = .holding e.settle) ∧ (¬ (a.p = b ∧ a.v = 0) → a.state = .recovering)
          ∧ stages b (max (-(e.crawl : Int)) (min (b - x.p) e.crawl)) b b false)

/-- One shaped step in FOLLOW, stage by stage: the clamped target, the speed limit or the fraction of a proportional
rig, the rate limit of the present velocity, the stop reach against the bound ahead, and what is left in the context
(R80 to R87). -/
def Obligations.StagesInFollow : Prop :=
  ∀ (s : State) (n : AxisId), (s.ctx n).state = .follow →
    let target (m : AxisId) : Int := if (s.ctx m).t < (s.entry m).lo then (s.entry m).lo
      else if ((s.entry m).hi : Int) < (s.ctx m).t then (s.entry m).hi else (s.ctx m).t
    let desired (m : AxisId) : Int := target m - (s.ctx m).p
    let fraction (m : AxisId) : Nat := if (desired m).natAbs ≤ (s.entry m).vmax then 16777216
      else 16777216 * (s.entry m).vmax / (desired m).natAbs
    let e := s.entry n
    let x := s.ctx n
    let stages (asked : Int) (scaled : Bool) : Prop :=
      let lower : Int := if 0 < x.v then x.v - e.dmax else x.v - e.amax
      let upper : Int := if x.v < 0 then x.v + e.dmax else x.v + e.amax
      let c : Int := max lower (min asked upper)
      let above : Int := if x.p ≤ target n then target n else e.hi
      let below : Int := if target n ≤ x.p then target n else e.lo
      let bites : Prop := (0 < c ∧ above < x.p + c + runOut c.toNat e.dmax)
        ∨ (c < 0 ∧ x.p + c - runOut (-c).toNat e.dmax < below)
      let left (w : Int) (lookahead : Bool) : Ctx :=
        { x with p := x.p + w, v := w, t := target n, clamped := target n != x.t, scaled := scaled,
                 lookahead := lookahead }
      (¬ bites → s.advanced n = left c false)
        ∧ (bites → 0 < c → s.advanced n = left (max 0 (x.v - e.dmax)) true)
        ∧ (bites → c < 0 → s.advanced n = left (min 0 (x.v + e.dmax)) true)
    ((∀ r ∈ s.rigOf n, (s.rig r).proportional = false) →
      stages (max (-(e.vmax : Int)) (min (desired n) e.vmax)) false)
      ∧ ∀ r ∈ s.rigOf n, (s.rig r).proportional = true →
        ∀ f ∈ (((s.rig r).members.filter fun m => (s.ctx m).state = .follow).map fraction).min?,
          stages (Int.tdiv (desired n * f) 16777216) (decide (f < 16777216))

/-- R79: the run-out distance of a speed s at a deceleration d of 1 or more, with q the whole part of s/d; below d
it is 0, and from d on it is one slower step and the run-out from there. -/
def Obligations.RunOutDistance : Prop :=
  ∀ s d : Nat, 1 ≤ d →
    (2 * (runOut s d : Int) = 2 * ((s / d : Nat) : Int) * s - d * (s / d : Nat) * ((s / d : Nat) + 1))
      ∧ runOut s d = ((List.range (s / d)).map fun k => s - (k + 1) * d).sum
      ∧ (s < d → runOut s d = 0) ∧ (d ≤ s → runOut s d = (s - d) + runOut (s - d) d)
      ∧ ∀ d', d ≤ d' → runOut s d' ≤ runOut s d

/-- A stop ramp at d from a speed v comes to rest after v/d + 1 advances, exactly its run-out distance further on
in the direction of its motion (R79, R94). -/
def Obligations.RampCoversTheRunOut : Prop :=
  ∀ (d v : Nat) (p : Int), 1 ≤ d →
    let advance (m : Int × Int) : Int × Int := (m.1 + rampVelocity d m.2, rampVelocity d m.2)
    advance^[v / d + 1] (p, v) = (p + runOut v d, 0)
      ∧ advance^[v / d + 1] (p, -v) = (p - runOut v d, 0)

/-- STEP_COMPLETION: no later than 150 µs after the start every live axis's ring takes the step's number and p, a
command frame is placed for each branch (an unsent one replaced is counted and latched as LATE), the status frame is
placed, free transmitters start, MOTION_OUT is judged and the engine is free; the payloads of both kinds of frame are
given octet by octet (R19, R35, R38, R56, R59, R100, R130, R172, R186, R187, R191, R192, R196). The operand `wait` and
its bound are the model's choice (log 2, log 14). -/
def Obligations.StepCompletion : Prop :=
  ∀ (s : State) (src : StepSource) (wait : Nat), s.resetLow = false → s.engine.inFlight = some src →
    let last := ticksOf s.engine.lastStepStart + 600
    let late (b : BranchId) : Prop := (s.branch b).command ≠ none
    let le32 (x : Int) : List Byte := (List.range 4).map fun i => (BitVec.ofInt 32 x).extractLsb' (8 * i) 8
    let stateCode (n : AxisId) : Nat := match (s.ctx n).state with
      | .offline => 0
      | .standby => 1
      | .locked => 2
      | .releasing _ _ => 3
      | .follow => 4
      | .stopping _ => 5
      | .holding _ => 6
      | .dwelling => 7
      | .parking => 8
      | .recovering => 9
    let causeCode (c : Cause) : Nat := match c with
      | .followErr => 1
      | .reportLost => 2
      | .driveFault => 3
      | .eot => 4
      | .brakeNotOpen => 5
      | .rigSkew => 6
      | .rigMember => 7
      | .rigHold => 8
    let bit (b : Bool) : Nat := if b = true then 1 else 0
    let live : List AxisId := allAxes.filter fun n => stateCode n ≠ 0
    let commandEntry (n : AxisId) : List Byte :=
      [BitVec.ofNat 8 (s.entry n).drive, BitVec.ofNat 8 (stateCode n), if stateCode n < 3 then 0 else 1]
        ++ le32 (s.ctx n).p ++ le32 (s.ctx n).v
    let statusEntry (n : AxisId) : List Byte :=
      let x := s.ctx n
      [BitVec.ofNat 8 n.val, BitVec.ofNat 8 (stateCode n)] ++ le32 x.p ++ le32 x.v ++ le32 x.t
        ++ [BitVec.ofNat 8 (bit x.clamped + 2 * bit x.scaled + 4 * bit x.lookahead)]
        ++ (match x.fault with
          | none => [0, 0] ++ le32 0
          | some r => [BitVec.ofNat 8 (causeCode r.cause), r.step] ++ le32 r.position)
        ++ [x.later]
    let statusHead (t : State) : List Byte :=
      [match s.governor.state with
        | .safe => 0
        | .armed => 1
        | .tripped => 2,
      s.governor.causes,
      (match s.cadence.state with
        | .unlocked => 0
        | .locking => 1
        | .locked => 2) + (match src with
        | .timer => 0
        | .setpoint => 4),
      s.engine.gseq,
      match s.router.mapping with
        | .straight => 0
        | .crossed => 1]
      ++ ((List.range 3).map fun i => t.latch.extractLsb' (8 * i) 8) ++ [BitVec.ofNat 8 live.length]
    (∀ set c, laterAdd set c = set ||| BitVec.twoPow 8 (causeCode c - 1))
    ∧ ∃ t, exec (.stepCompletion wait) s = .next t
      ∧ t.clock = (if reached last s.clock then s.clock
          else s.clock + BitVec.ofNat 50 (min wait (last - s.clock).toNat))
      ∧ (∀ n, ((s.ctx n).state = .offline → t.ctx n = s.ctx n)
        ∧ ((s.ctx n).state ≠ .offline → t.ctx n = { s.ctx n with
            ring := ((s.ctx n).ring ++ [({ step := s.engine.gseq, p := (s.ctx n).p } : RingPair)]).drop
              ((s.ctx n).ring.length + 1 - 8) }))
      ∧ (∀ b,
        let f := s.commandFrame b
        let p := portOf s.router.mapping b
        let axes := live.filter fun n => (s.entry n).branch = b
        f.addr = 0xFE ∧ f.kind = 0x11 ∧ f.seq = s.engine.gseq ∧ f.payload.length = 1 + 11 * axes.length
          ∧ f.payload = BitVec.ofNat 8 axes.length :: axes.flatMap commandEntry
          ∧ f.payload.length ≤ 192
          ∧ (t.branch b).passthrough = (s.branch b).passthrough
          ∧ ((s.port p).tx = none → (t.port p).tx = some (sendingOf f t.clock) ∧ (t.branch b).command = none)
          ∧ ((s.port p).tx ≠ none → (t.port p).tx = (s.port p).tx ∧ (t.branch b).command = some f)
          ∧ (late b → t.hasEvent (.late b) = true ∧ t.count (.late b) = satInc (s.count (.late b)))
          ∧ (¬ late b → t.hasEvent (.late b) = s.hasEvent (.late b) ∧ t.count (.late b) = s.count (.late b)))
      ∧ (let f := t.statusFrame src
        f.addr = 0x00 ∧ f.kind = 0x22 ∧ f.seq = s.engine.gseq ∧ f.payload.length = 9 + 22 * live.length
          ∧ f.payload = statusHead t ++ live.flatMap statusEntry
          ∧ f.payload.length ≤ 192
          ∧ (s.u.tx = none → t.u.tx = some (sendingOf f t.clock) ∧ t.queues.status = none)
          ∧ (s.u.tx ≠ none → t.u.tx = s.u.tx ∧ t.queues.status = some f))
      ∧ t.queues.responses = s.queues.responses ∧ t.queues.forward = s.queues.forward
      ∧ (∀ r, Bank.at' t.motion r = (s.rig r).members.any fun n => (s.ctx n).v != 0)
      ∧ t.engine = { s.engine with inFlight := none }
      ∧ (∀ e, (∀ b, e ≠ .late b) → t.hasEvent e = s.hasEvent e)
      ∧ (∀ c, (∀ b, c ≠ .late b) → t.count c = s.count c)
      ∧ (∀ p, (t.port p).rx = (s.port p).rx ∧ (t.port p).fifo = (s.port p).fifo
        ∧ ∀ c, t.portCount p c = s.portCount p c)
      ∧ s.keepsBut [.clock, .axes, .port .u, .port .da, .port .db, .queues, .motion, .engine, .latch, .counters,
          .outputs] t

/-! ## Reports -/

/-- TAKE_REPORT, discarded: a wrong length counts UNROUTED; a drive address of no enabled axis counts UNROUTED and
is recorded as not crossed; a report from the other branch's port counts CROSSED and records its port. No context
changes (R32, R33, R126). That the frames behind are judged after the taking, and the interval-open flag, are the
model's readings (log 5, log 22). -/
def Obligations.ReportDiscarded : Prop :=
  ∀ (s : State) (p : PortId) (r : Received) (next : BranchId), s.resetLow = false → s.QueuesLaw →
    s.arbiter = some (.drive p r next) →
    let o := r.frame.payload
    let records : Bool := s.governor.state == .safe && s.globals.swapAuto && s.router.intervalOpen
    ∃ t, exec .takeReport s = .next t ∧ s.routesBehindOn p t ∧ t.engine.nextBranch = next
      ∧ (o.length ≠ 6 → s.countsBehindOn p [.unrouted] t ∧ t.engine = { s.engine with nextBranch := next }
        ∧ s.keepsBeyondLink [.engine] t)
      ∧ (o.length = 6 → (∀ n, ¬ ((s.entry n).enabled = true ∧ (s.entry n).drive = u8 o 0)) →
        s.countsBehindOn p [.unrouted] t ∧ t.engine = { s.engine with nextBranch := next }
          ∧ t.router = { s.router with notCrossed := s.router.notCrossed || records }
          ∧ s.keepsBeyondLink [.engine, .router] t)
      ∧ (o.length = 6 → s.TablesLaw → ∀ n, (s.entry n).enabled = true → (s.entry n).drive = u8 o 0 →
        branchOn s.router.mapping p = some (otherBranch (s.entry n).branch) →
        s.countsBehindOn p [.crossed] t ∧ t.engine = { s.engine with nextBranch := next }
          ∧ t.router = { s.router with
              fromDA := s.router.fromDA || (records && p == .da)
              fromDB := s.router.fromDB || (records && p == .db) }
          ∧ s.keepsBeyondLink [.engine, .router] t)

/-- TAKE_REPORT, straight: the report is stored and marks the axis fresh; STANDBY tracks it; with permission on the
following error is judged against the ring, a missing pair counts STALE; a locked axis outside SAFE is judged for
drift (R127 to R132, R136). A report that shows not READY or FAULT raises DRIVE_FAULT first, once for a fault record;
a following error beyond tolerance of the same report is then recorded as FOLLOW_ERR only and does not escalate (R134,
R135). That the frames behind are judged after the taking, the interval-open flag, and that STANDBY takes the
reported position before its fault position is recorded, are the model's readings (log 5, log 22, log 31). -/
def Obligations.StraightReport : Prop :=
  ∀ (s : State) (p : PortId) (r : Received) (next : BranchId) (n : AxisId), s.resetLow = false → s.QueuesLaw →
    s.TablesLaw → s.EnabledLaw → s.ModesLaw → s.arbiter = some (.drive p r next) → r.frame.payload.length = 6 →
    (s.entry n).enabled = true → (s.entry n).drive = u8 r.frame.payload 0 →
    branchOn s.router.mapping p = some (s.entry n).branch →
    let o := r.frame.payload
    let q := s32 o 1
    let ready := (o.getD 5 0).getLsbD 0
    let fault := (o.getD 5 0).getLsbD 1
    let records : Bool := s.governor.state == .safe && s.globals.swapAuto && s.router.intervalOpen
    let x := s.ctx n
    let y : Ctx :=
      { x with fresh := true, lapse := 0, lastReport := some { position := q, ready := ready, fault := fault } }
    let withError (e : Int) : Ctx := { y with lastFollow := some { error := e, gseq := s.engine.gseq } }
    let bad : Prop := (ready = false ∨ fault = true) ∧ x.holds .driveFault = false
    let kept (z : Ctx) : Ctx := if bad then z.record .driveFault s.engine.gseq else z
    let echoed := x.ring.find? fun k => k.step == r.frame.seq - BitVec.ofNat 8 (s.entry n).echoDelay
    let only (cs : List GlobalCounter) (z : Ctx) (t : State) : Prop :=
      t.ctx n = z ∧ s.keepsAxesBut [n] t ∧ s.countsBehindOn p cs t
        ∧ t.engine = { s.engine with nextBranch := next } ∧ s.keepsBeyondLink [.engine, .router, .axes] t
    ∃ t, exec .takeReport s = .next t ∧ s.routesBehindOn p t ∧ t.engine.nextBranch = next
      ∧ t.router = { s.router with
          notCrossed := s.router.notCrossed || records
          crossCount := if records then 0 else s.router.crossCount }
      ∧ (x.state = .standby → only [] (kept { y with p := q, v := 0, t := q }) t)
      ∧ (x.state = .locked → s.governor.state ≠ .safe →
        t.ctx n = kept (withError (q - x.p)) ∧ s.keepsAxesBut [n] t ∧ s.countsBehindOn p [] t
          ∧ ((q - x.p).natAbs ≤ (s.entry n).followTol →
            t.engine = { s.engine with nextBranch := next } ∧ s.keepsBeyondLink [.engine, .router, .axes] t)
          ∧ ((s.entry n).followTol < (q - x.p).natAbs →
            s.tripRaised .brakeSlip t ∧ s.keepsConditions t
              ∧ t.engine = { s.engine with nextBranch := next, notices := s.noticesAtTrip }
              ∧ s.latches (if s.governor.state = .armed then [.axisFault n, .trip] else [.axisFault n]) t
              ∧ s.keepsBeyondLink [.engine, .router, .axes, .governor, .latch] t))
      ∧ (¬ bad →
        (x.state.code = 3 → only [] y t)
          ∧ (x.state.judgesFollowing = true → echoed = none → only [.stale] y t)
          ∧ (x.state.judgesFollowing = true → ∀ k ∈ echoed, (q - k.p).natAbs ≤ (s.entry n).followTol →
            only [] (withError (q - k.p)) t)
          ∧ (x.state.judgesFollowing = true → ∀ k ∈ echoed, (s.entry n).followTol < (q - k.p).natAbs →
            (t.ctx n).holds .followErr = true ∧ (t.ctx n).lastFollow = some { error := q - k.p, gseq := s.engine.gseq }
              ∧ (x.fault = none → x.holds .followErr = false → s.rigOf n = none → s.governor.state = .armed →
                x.state = .follow →
                t.ctx n = { withError (q - k.p) with
                    state := .stopping .fault
                    fault := some { cause := .followErr, step := s.engine.gseq, position := x.p } }
                  ∧ t.hasEvent (.axisFault n) = true)
              ∧ (x.holds .followErr = true → only [] (withError (q - k.p)) t)
              ∧ (x.holds .followErr = false →
                let raised := (s.setCtx n (withError (q - k.p))).raiseAlone n .followErr
                t.axes = raised.axes ∧ t.contests = raised.contests ∧ t.governor = raised.governor
                  ∧ t.latch = raised.latch ∧ t.engine = { raised.engine with nextBranch := next }
                  ∧ s.countsBehindOn p [] t
                  ∧ s.keepsBeyondLink [.engine, .router, .axes, .contests, .governor, .latch] t)))
      ∧ (ready = false ∨ fault = true →
        (t.ctx n).holds .driveFault = true ∧ (t.ctx n).fresh = true ∧ (t.ctx n).lapse = 0
          ∧ (t.ctx n).lastReport = y.lastReport
          ∧ (bad → x.state.code = 3 ∨ (x.state.judgesFollowing = true ∧ echoed = none) →
            let raised := (s.setCtx n y).raiseAlone n .driveFault
            t.axes = raised.axes ∧ t.contests = raised.contests ∧ t.governor = raised.governor
              ∧ t.latch = raised.latch ∧ t.engine = { raised.engine with nextBranch := next }
              ∧ s.countsBehindOn p (if x.state.code = 3 then [] else [.stale]) t
              ∧ s.keepsBeyondLink [.engine, .router, .axes, .contests, .governor, .latch] t)
          ∧ (x.fault = none → bad → s.rigOf n = none → s.governor.state = .armed → x.state = .follow → echoed = none →
            t.ctx n = { y with
                state := .stopping .fault
                fault := some { cause := .driveFault, step := s.engine.gseq, position := x.p } }
              ∧ t.hasEvent (.axisFault n) = true)
          ∧ (bad → x.state.judgesFollowing = true → ∀ k ∈ echoed,
            let raised := (s.setCtx n y).raiseAlone n .driveFault
            let z : Ctx :=
              { raised.ctx n with lastFollow := some { error := q - k.p, gseq := s.engine.gseq } }
            let second : Prop := (s.entry n).followTol < (q - k.p).natAbs ∧ x.holds .followErr = false
            t.ctx n = (if second then z.record .followErr s.engine.gseq else z)
              ∧ (∀ m, m ≠ n → t.ctx m = raised.ctx m)
              ∧ t.contests = raised.contests ∧ t.governor = raised.governor ∧ t.latch = raised.latch
              ∧ t.engine = { raised.engine with nextBranch := next } ∧ s.countsBehindOn p [] t
              ∧ s.keepsBeyondLink [.engine, .router, .axes, .contests, .governor, .latch] t
              ∧ (second → x.fault = none → s.rigOf n = none → s.governor.state = .armed → x.state = .follow →
                t.ctx n = { y with
                    state := .stopping .fault
                    lastFollow := some { error := q - k.p, gseq := s.engine.gseq }
                    fault := some { cause := .driveFault, step := s.engine.gseq, position := x.p }
                    later := laterAdd x.later .followErr }
                  ∧ t.governor = s.governor)))

/-! ## Fault causes -/

/-- What a cause raised in ARMED does by state (the rows of R113), and what raising one does to the axis, to its rig,
to the events and to the governor (R112 to R116, R123, R166). -/
def Obligations.FaultCausesAct : Prop :=
  (∀ x : Ctx,
      (x.state = .follow ∨ x.state = .recovering ∨ x.state = .stopping .normal → x.faultRow = .stop)
        ∧ (∀ k, x.state = .holding k → x.faultRow = if x.fault = none then .stop else .escalate)
        ∧ (∀ next o, x.state = .releasing next o → x.faultRow = .lock)
        ∧ (x.state = .stopping .fault ∨ x.state = .dwelling ∨ x.state = .parking → x.faultRow = .escalate)
        ∧ (x.state = .offline ∨ x.state = .standby ∨ x.state = .locked → x.faultRow = .recordOnly)
        ∧ ∀ (c : Cause) (g : Byte),
          (x.fault = none → x.record c g = { x with fault := some { cause := c, step := g, position := x.p } })
            ∧ (x.fault ≠ none → x.record c g = { x with later := laterAdd x.later c }))
    ∧ ∀ (s : State) (n : AxisId) (c : Cause), s.TablesLaw → s.FlagsLaw → s.ContestsLaw →
      s.raised n c (s.raiseAlone n c)

/-! ## Requests -/

/-- Every response, octet by octet: the request code, the result code, the two details, and data with OK alone.
READ_TABLE, READ_LINES and UNKNOWN_REQUEST change nothing but their answer; READ_TABLE is refused by its form in the
order of R67, else returns the entries as they stand; READ_LINES returns a record for each line (R67, R68, R174, R178,
R179, R180, R190, R194, R196). That the frames behind are judged after the effects is the model's reading (log 5),
here and for every request. -/
def Obligations.ReadsAndUnknownRequests : Prop :=
  (∀ (f : Frame) (a : Reply),
    let governor (g : GovState) : Nat := match g with
      | .safe => 0
      | .armed => 1
      | .tripped => 2
    let axis (x : AxisState) : Nat := match x with
      | .offline => 0
      | .standby => 1
      | .locked => 2
      | .releasing _ _ => 3
      | .follow => 4
      | .stopping _ => 5
      | .holding _ => 6
      | .dwelling => 7
      | .parking => 8
      | .recovering => 9
    let refusal (c : RefusalCode) : Nat := match c with
      | .notFresh => 1
      | .eot => 2
      | .driveFault => 3
      | .outside => 4
      | .inside => 5
      | .rigHold => 6
      | .armKey => 7
      | .cadence => 8
      | .stopIn => 9
      | .chain => 10
      | .noAxis => 11
      | .brakeReleased => 12
      | .brakeStuck => 14
    let result : Nat × Nat × Nat := match a.result with
      | .ok => (0, 0xFF, 0xFF)
      | .badRequest => (1, 0xFF, 0xFF)
      | .badTable => (2, 0xFF, 0xFF)
      | .badIndex => (3, 0xFF, 0xFF)
      | .badValue entry field => (4, entry, field)
      | .wrongState g none => (5, governor g, 0xFF)
      | .wrongState g (some x) => (5, governor g, axis x)
      | .wrongTarget => (6, 0xFF, 0xFF)
      | .causeActive c none => (7, refusal c, 0xFF)
      | .causeActive c (some index) => (7, refusal c, index)
      | .inRig entry => (8, entry, 0xFF)
    responseFrame f a =
      { addr := 0x00, kind := 0x21, seq := f.seq
        payload := [f.payload.headD 0, BitVec.ofNat 8 result.1, BitVec.ofNat 8 result.2.1,
          BitVec.ofNat 8 result.2.2] ++ if a.result = .ok then a.data else [] })
  ∧ ∀ (s : State) (f : Frame), s.QueuesLaw →
    let o := f.payload
    let first := u8 o 2
    let count := u8 o 3
    let answers (c : Instr) (a : Reply) : Prop := ∃ t, exec c s = .next t ∧ s.onlyAnswers f a t
    (s.asked .readTable f →
      (3 < u8 o 1 → answers .readTable (reply .badTable))
        ∧ ∀ tb, tableOf (u8 o 1) = some tb →
          (count = 0 ∨ tb.most < count ∨ tb.entries ≤ first ∨ tb.entries < first + count →
            answers .readTable (reply .badIndex))
            ∧ (1 ≤ count → count ≤ tb.most → first + count ≤ tb.entries → o.length ≠ 4 →
              answers .readTable (reply .badRequest))
            ∧ (1 ≤ count → count ≤ tb.most → first + count ≤ tb.entries → o.length = 4 →
              answers .readTable { result := .ok
                                   data := put8 (u8 o 1) ++ put8 first ++ put8 count
                                     ++ (List.range count).flatMap fun k => s.entryOctets tb (first + k) }))
      ∧ (s.asked .readLines f →
        answers .readLines { result := .ok
                             data := LineId.all.flatMap fun l =>
                               put8 ((match s.drivenLevel l with
                                 | none => 2
                                 | some true => 1
                                 | some false => 0)
                                 + (if (s.line l).pin then 4 else 0) + (if s.filtered l then 8 else 0)) })
      ∧ (s.asked .unknown f → answers .unknownRequest (reply .badRequest))

/-- The field checks of a carried entry accept exactly the ranges of the tables, and the first field that fails is
named. A WRITE_TABLE is refused by its form, by its table permission, then by the first carried entry that fails:
its fields, the union and the rig table, its state permission; else it passes (R62 to R67, R69 to R73, R170, R195).
That a carried rig entry not yet judged, with a count above 4, lists its four member octets in the union is the
model's reading (log 32). -/
def Obligations.FieldChecksAcceptTheRanges : Prop :=
  (∀ e : AxisEntry, e.Valid → firstFailing (axisFieldChecks e.encode) = none)
    ∧ (∀ o : List Byte, o.length = 32 → firstFailing (axisFieldChecks o) = none → (AxisEntry.decode o).Valid)
    ∧ (∀ g : Globals, g.Valid → firstFailing (globalFieldChecks g.encode) = none)
    ∧ (∀ o : List Byte, o.length = 12 → firstFailing (globalFieldChecks o) = none → (Globals.decode o).Valid)
    ∧ (∀ e : LineEntry, e.Valid → firstFailing (lineFieldChecks e.encode) = none)
    ∧ (∀ o : List Byte, o.length = 4 → firstFailing (lineFieldChecks o) = none → (LineEntry.decode o).Valid)
    ∧ (∀ (s : State) (e : RigEntry), e.Valid → (∀ n ∈ e.members, (s.entry n).enabled = true
          ∧ (e.profile = .stopDwellPark → (s.entry n).park ≠ none)) →
        firstFailing (s.rigFieldChecks e.encode) = none)
    ∧ ∀ (s : State) (o : List Byte), o.length = 13 → firstFailing (s.rigFieldChecks o) = none →
        (RigEntry.decode o).Valid
          ∧ (RigEntry.decode o).members.map Fin.val = (List.range (u8 o 0)).map (fun k => u8 o (1 + k))
          ∧ ∀ n ∈ (RigEntry.decode o).members, (s.entry n).enabled = true
          ∧ ((RigEntry.decode o).profile = .stopDwellPark → (s.entry n).park ≠ none)
    ∧ (let listed (o : List Byte) : List Nat := (List.range (min 4 (u8 o 0))).map fun k => u8 o (1 + k)
      let outside (lo hi x : Nat) : Prop := x < lo ∨ hi < x
      let axisFails (o : List Byte) (k : Nat) : Prop :=
        k = 1 ∧ 1 < u8 o 0 ∨ k = 2 ∧ 1 < u8 o 1 ∨ k = 3 ∧ (62 < u8 o 2 ∨ u8 o 2 = 0 ∧ u8 o 0 = 1)
          ∨ k = 4 ∧ 60000000 < u32 o 3 ∨ k = 5 ∧ (60000000 < u32 o 7 ∨ u32 o 7 ≤ u32 o 3)
          ∨ k = 6 ∧ u16 o 11 < 16 ∨ k = 7 ∧ outside 1 4095 (u16 o 13) ∨ k = 8 ∧ outside 1 4095 (u16 o 15)
          ∨ k = 9 ∧ outside (u16 o 15) 4095 (u16 o 17) ∨ k = 10 ∧ outside 16 (u16 o 11) (u16 o 19)
          ∨ k = 11 ∧ outside 100 1000000 (u32 o 21) ∨ k = 12 ∧ 6 < u8 o 25 ∨ k = 13 ∧ u8 o 26 = 0
          ∨ k = 14 ∧ (1 < u8 o 27 ∨ u8 o 27 = 1 ∧ outside (u32 o 3) (u32 o 7) (u32 o 28))
      let rigFails (s : State) (o : List Byte) (k : Nat) : Prop :=
        k = 1 ∧ (4 < u8 o 0 ∨ (∃ m ∈ listed o, 7 < m) ∨ ¬ (listed o).Nodup
            ∨ ∃ n : AxisId, n.val ∈ listed o ∧ (s.entry n).enabled = false)
          ∨ k = 2 ∧ 1 < u8 o 5 ∨ k = 3 ∧ outside 100 500000 (u32 o 6)
          ∨ k = 4 ∧ (1 < u8 o 10 ∨ u8 o 10 = 1 ∧ ∃ n : AxisId, n.val ∈ listed o ∧ (s.entry n).park = none)
          ∨ k = 5 ∧ outside 1 4095 (u16 o 11)
      let globalsFail (o : List Byte) (k : Nat) : Prop :=
        k = 1 ∧ outside 1000 10000 (u16 o 0) ∨ k = 2 ∧ outside 20 2000 (u16 o 2) ∨ k = 3 ∧ outside 4 64 (u8 o 4)
          ∨ k = 4 ∧ outside 1 8 (u8 o 5) ∨ k = 5 ∧ outside 2 8 (u8 o 6) ∨ k = 6 ∧ outside 20 1000 (u16 o 7)
          ∨ k = 7 ∧ outside 1 15 (u8 o 9) ∨ k = 8 ∧ 1 < u8 o 10 ∨ k = 9 ∧ 1 < u8 o 11
      let lineFails (o : List Byte) (k : Nat) : Prop :=
        k = 1 ∧ 6 < u8 o 0 ∨ k = 2 ∧ (3 < u8 o 1 ∨ u8 o 1 ≠ 0 ∧ u8 o 0 ≠ 4 ∧ u8 o 0 ≠ 5)
          ∨ k = 3 ∧ 1 < u8 o 2 ∨ k = 4 ∧ 31 < u8 o 3
      (∀ o k, firstFailing (axisFieldChecks o) = some k ↔ axisFails o k ∧ ∀ j, j < k → ¬ axisFails o j)
        ∧ (∀ (s : State) (o : List Byte) (k : Nat),
          firstFailing (s.rigFieldChecks o) = some k ↔ rigFails s o k ∧ ∀ j, j < k → ¬ rigFails s o j)
        ∧ (∀ o k, firstFailing (globalFieldChecks o) = some k ↔ globalsFail o k ∧ ∀ j, j < k → ¬ globalsFail o j)
        ∧ ∀ o k, firstFailing (lineFieldChecks o) = some k ↔ lineFails o k ∧ ∀ j, j < k → ¬ lineFails o j)
    ∧ (∀ f : Frame,
      let table := u8 f.payload 1
      let first := u8 f.payload 2
      let count := u8 f.payload 3
      (3 < table → headTable f = none ∧ tableForm true f = .badTable)
        ∧ ∀ x ∈ ([(.axis, 0, 8, 5, 32), (.rig, 1, 4, 4, 13), (.globals, 2, 1, 1, 12), (.line, 3, 6, 6, 4)] :
            List (TableId × Nat × Nat × Nat × Nat)),
          let (tb, code, entries, most, width) := x
          table = code → headTable f = some tb
            ∧ (∀ k, carried tb f k = (f.payload.drop (4 + k * width)).take width)
            ∧ (count = 0 ∨ most < count ∨ entries < first + count → tableForm true f = .badIndex)
            ∧ (1 ≤ count → count ≤ most → first + count ≤ entries →
              tableForm true f = if f.payload.length = 4 + count * width then .ok else .badRequest))
    ∧ ∀ (s : State) (f : Frame), tableForm true f = .ok →
      let g := s.governor.state
      let first := u8 f.payload 2
      let count := u8 f.payload 3
      let names (i : Nat) : Prop := first ≤ i ∧ i < first + count
      let judges (tb : TableId) (bad : Nat → Option Result) : Prop :=
        (∀ i, names i → (∀ j, j < i → names j → bad j = none) → ∀ r ∈ bad i, s.judgeWrite tb f = r)
          ∧ ((∀ i, names i → bad i = none) → s.judgeWrite tb f = .ok)
      let fields (tb : TableId) (checks : List Byte → List (Nat × Bool)) (i : Nat) : Option Result :=
        (firstFailing (checks (carried tb f (i - first)))).map fun k => .badValue i k
      let drive (m : AxisId) : Nat :=
        if names m.val then (AxisEntry.decode (carried .axis f (m.val - first))).drive else (s.entry m).drive
      let lists (q : RigId) : List Nat :=
        let o := carried .rig f (q.val - first)
        if names q.val then (List.range (min 4 (u8 o 0))).map fun k => u8 o (1 + k)
        else (s.rig q).members.map Fin.val
      let badAxis (i : Nat) : Option Result :=
        let n := axisIdOf i
        let x := AxisEntry.decode (carried .axis f (i - first))
        let y := s.entry n
        let st := (s.ctx n).state
        (fields .axis axisFieldChecks i).or
          (if x.drive ≠ 0 ∧ ∃ m, m ≠ n ∧ drive m = x.drive then some (.badValue i 3)
          else if (∃ r ∈ s.rigOf n, x.enabled = false ∨ (s.rig r).profile = .stopDwellPark ∧ x.park = none) then
            some (.inRig i)
          else if g ≠ .safe ∧ (st ≠ .locked ∧ st ≠ .offline
              ∨ x.enabled ≠ y.enabled ∨ x.branch ≠ y.branch ∨ x.drive ≠ y.drive) then
            some (.wrongState g (some st))
          else none)
      let badRig (i : Nat) : Option Result :=
        let o := carried .rig f (i - first)
        (fields .rig s.rigFieldChecks i).or
          (if ∃ q : RigId, q.val ≠ i ∧ ∃ m ∈ (List.range (u8 o 0)).map (fun k => u8 o (1 + k)), m ∈ lists q then
            some (.badValue i 1)
          else if g = .safe then none
          else (((allRigs.filter fun r => r.val = i).flatMap fun r => (s.rig r).members)
              ++ (RigEntry.decode o).members).find? (fun n => (s.ctx n).state ≠ .locked) |>.map
            fun n => .wrongState g (some (s.ctx n).state))
      (headTable f = some .axis → judges .axis badAxis)
        ∧ (headTable f = some .rig → judges .rig badRig)
        ∧ (headTable f = some .globals →
          (g ≠ .safe → s.judgeWrite .globals f = .wrongState g none)
            ∧ (g = .safe → judges .globals (fields .globals globalFieldChecks)))
        ∧ (headTable f = some .line →
          (g ≠ .safe → s.judgeWrite .line f = .wrongState g none)
            ∧ (g = .safe → judges .line (fields .line lineFieldChecks)))

/-- WRITE_TABLE: all that is carried is applied, or nothing. What an applied entry does: the enable and disable
transitions, the context of a changed drive, the runtime of a rig, the cadence, chain condition and record of the
global record, the notes of a line and every waiting notice as the write leaves it (R53, R67, R69, R74 to R77, R102,
R148, R162, R166, R173). The pace timer's expiry after one that has already passed, the interval-open flag, the
fields of an OFFLINE axis and the order of the notices of one write are the model's (log 16, log 22, log 28, log 34). -/
def Obligations.TableWritten : Prop :=
  ∀ (s : State) (f : Frame), s.QueuesLaw → s.EnabledLaw → s.ModesLaw → s.FlagsLaw → s.asked .writeTable f →
    let first := u8 f.payload 2
    let count := u8 f.payload 3
    let names (i : Nat) : Prop := first ≤ i ∧ i < first + count
    (tableForm true f ≠ .ok → ∃ t, exec .writeTable s = .next t ∧ s.onlyAnswers f (reply (tableForm true f)) t)
      ∧ ∀ tb, headTable f = some tb → tableForm true f = .ok →
        (s.judgeWrite tb f ≠ .ok →
          ∃ t, exec .writeTable s = .next t ∧ s.onlyAnswers f (reply (s.judgeWrite tb f)) t)
          ∧ (s.judgeWrite tb f = .ok → ∃ t, exec .writeTable s = .next t ∧ s.answered f (reply .ok) t
            ∧ s.routesBehind t ∧ s.passesBehind t ∧ s.countsBehind [] t
            ∧ (tb = .axis →
              (∀ n, let new := AxisEntry.decode (carried .axis f (n.val - first))
                let old := s.entry n
                (¬ names n.val → t.entry n = old ∧ t.ctx n = s.ctx n ∧ t.contest n = s.contest n)
                  ∧ (names n.val → t.entry n = new
                    ∧ (new.enabled = true → old.enabled = false →
                      t.ctx n = { Ctx.initial with state := .standby } ∧ t.contest n = some (s.freshContest false))
                    ∧ (new.enabled = false → t.ctx n = Ctx.initial ∧ t.contest n = none)
                    ∧ (new.enabled = true → old.enabled = true → t.contest n = s.contest n
                      ∧ t.ctx n = if new.drive ≠ old.drive ∨ new.branch ≠ old.branch then
                          { s.ctx n with
                            ring := [], lastReport := none, lastFollow := none, fresh := false, lapse := 0 }
                        else s.ctx n)))
                ∧ t.governor = { s.governor with stuck := t.anyStuck }
                ∧ s.keepsBeyondLink [.axisTable, .axes, .contests, .governor] t)
            ∧ (tb = .rig →
              (∀ r, (¬ names r.val → t.rig r = s.rig r ∧ Bank.at' t.dwell r = Bank.at' s.dwell r)
                ∧ (names r.val → t.rig r = RigEntry.decode (carried .rig f (r.val - first))
                  ∧ Bank.at' t.dwell r = none))
                ∧ s.keepsBeyondLink [.rigTable, .dwell] t)
            ∧ (tb = .globals →
              let new := Globals.decode (carried .globals f 0)
              let old := s.globals
              let paced : Prop := new.P ≠ old.P ∨ new.W ≠ old.W
              let passed := reachedMicros (addMicros s.engine.lastStepStart new.P) s.timeBase
              t.globals = new
                ∧ (¬ paced → t.cadence = s.cadence ∧ t.engine = s.engine ∧ t.latch = s.latch)
                ∧ (paced → t.cadence = { s.cadence with
                      state := .unlocked, lockCount := 0, missCount := 0, lapse := none
                      paceNext := some (if passed then addMicros (addMicros s.engine.lastStepStart new.P) new.P
                        else addMicros s.engine.lastStepStart new.P) }
                    ∧ t.engine = { s.engine with due := s.engine.due || passed }
                    ∧ s.latches (if s.cadence.state = .unlocked then [] else [.cadence]) t
                    ∧ t.governor.cadence = true)
                ∧ t.governor = { s.governor with
                    chain := new.chainUse && !s.filtered .clearIn, cadence := t.governor.cadence }
                ∧ (¬ paced → t.governor.cadence = s.governor.cadence)
                ∧ (new.swapAuto = true → old.swapAuto = true → t.router = s.router)
                ∧ (new.swapAuto = false ∨ old.swapAuto = false → t.router = { s.router with
                    crossCount := 0, fromDA := false, fromDB := false, notCrossed := false, intervalOpen := false })
                ∧ s.keepsBeyondLink [.globals, .cadence, .engine, .latch, .governor, .router] t)
            ∧ (tb = .line →
              (∀ k, let new := LineEntry.decode (carried .line f (k.val - first))
                let old := Bank.at' s.lineTable k
                let x := s.line (.gl k)
                let passes : Prop := names k.val ∧ new.filter ≠ old.filter
                  ∧ ∃ τ ∈ x.noted, new.filter * 1000 ≤ (s.timeBase - τ).toNat
                (¬ names k.val → Bank.at' t.lineTable k = old) ∧ (names k.val → Bank.at' t.lineTable k = new)
                  ∧ (¬ passes → t.line (.gl k) = x
                    ∧ (t.engine.notices.any (Notice.fromLine (.gl k))
                        = (s.engine.notices.any (Notice.fromLine (.gl k))
                          && !decide (names k.val ∧ (new.fn ≠ old.fn ∨ new.arg ≠ old.arg)))))
                  ∧ (passes → t.line (.gl k) = { x with accepted := x.pin, noted := none }
                    ∧ (new.fn.placesNotices = true → t.engine.notices.any (Notice.fromLine (.gl k)) = true)))
                ∧ (let written (l : List Notice) (k : GenId) : List Notice :=
                    let new := LineEntry.decode (carried .line f (k.val - first))
                    let old := Bank.at' s.lineTable k
                    let x := s.line (.gl k)
                    let kept := if names k.val ∧ (new.fn ≠ old.fn ∨ new.arg ≠ old.arg) then
                        l.filter fun m => !Notice.fromLine (.gl k) m
                      else l
                    if names k.val ∧ new.filter ≠ old.filter ∧ new.fn.placesNotices = true
                        ∧ (x.noted.any fun τ => decide (new.filter * 1000 ≤ (s.timeBase - τ).toNat)) = true then
                      placeLineNotice (.gl k) (x.pin != new.invert) kept
                    else kept
                  t.engine.notices = allGens.foldl written s.engine.notices)
                ∧ s.keepsLinesBut (allGens.map .gl) t
                ∧ t.engine = { s.engine with notices := t.engine.notices }
                ∧ t.engine.notices.filter (fun x => !allGens.any fun k => Notice.fromLine (.gl k) x)
                    = s.engine.notices.filter (fun x => !allGens.any fun k => Notice.fromLine (.gl k) x)
                ∧ s.keepsBeyondLink [.lineTable, .lines, .engine] t))

/-- ARM: refused in the order of R151 with nothing changed; accepted, the governor is ARMED with the active causes
whose flags are set, every STANDBY axis is LOCKED at its last report with its fault record and ring cleared, the rig
runtimes and the cross-detect record are empty and the passthrough FIFOs are emptied (R28, R34, R103, R144, R151,
R152). The interval-open flag is the model's own (log 22). -/
def Obligations.ArmRequest : Prop :=
  ∀ (s : State) (f : Frame), s.QueuesLaw → s.asked .arm f →
    let ready (n : AxisId) : Bool := s.ctx n |>.lastReport.any fun r => r.ready && !r.fault
    let result : Result :=
      if s.governor.state ≠ .safe then .wrongState s.governor.state none
      else if s.cadence.state ≠ .locked then .causeActive .cadence none
      else if s.filtered .stopIn then .causeActive .stopIn none
      else if s.globals.chainUse && !s.filtered .clearIn then .causeActive .chain none
      else if s.armKeyOff then .causeActive .armKey none
      else if ∀ n, (s.entry n).enabled = false then .causeActive .noAxis none
      else match allAxes.find? fun n => (s.entry n).enabled && !((s.ctx n).fresh && ready n) with
        | some n => .causeActive (if (s.ctx n).fresh then .driveFault else .notFresh) (some n.val)
        | none =>
          match allAxes.find? fun n => (s.entry n).enabled && s.senseReleased n with
          | some n => .causeActive .brakeReleased (some n.val)
          | none => .ok
    (result ≠ .ok → ∃ t, exec .arm s = .next t ∧ s.onlyAnswers f (reply result) t)
      ∧ (result = .ok → ∃ t, exec .arm s = .next t ∧ s.answered f (reply .ok) t ∧ s.routesBehind t
        ∧ s.countsBeyond [.unrouted, .passBlocked] [] t ∧ t.da.tx = s.da.tx ∧ t.db.tx = s.db.tx
        ∧ t.governor = { s.governor with state := .armed, causes := s.governor.activeCauses }
        ∧ (∀ n, (s.ctx n).state ≠ .standby → t.ctx n = s.ctx n)
        ∧ (∀ n, (s.ctx n).state = .standby → ∀ r, (s.ctx n).lastReport = some r →
          t.ctx n = { s.ctx n with
            state := .locked, p := r.position, v := 0, t := r.position, fault := none, later := 0, ring := [] })
        ∧ (∀ r, Bank.at' t.dwell r = none)
        ∧ t.router = { mapping := s.router.mapping, crossCount := 0, fromDA := false, fromDB := false,
                       notCrossed := false, intervalOpen := false }
        ∧ (∀ b, (t.branch b).passthrough = [] ∧ (t.branch b).command = (s.branch b).command)
        ∧ (s.u.fifo.tail = [] → t.count .unrouted = s.count .unrouted
          ∧ (t.count .passBlocked).toNat = min 65535 ((s.count .passBlocked).toNat
            + (s.branch .b0).passthrough.length + (s.branch .b1).passthrough.length))
        ∧ s.keepsBeyondLink [.governor, .axes, .dwell, .router] t)

/-- DISARM, STOP_ALL and RESET_TRIP: what refuses each, in its order, and what each does (R104, R144, R146, R153 to
R155). -/
def Obligations.GovernorRequests : Prop :=
  ∀ (s : State) (f : Frame), s.QueuesLaw → s.CausesLaw →
    let unsettled : Option AxisState := (allAxes.find? fun n =>
      (s.ctx n).state ≠ .locked && (s.ctx n).state ≠ .offline).map fun n => (s.ctx n).state
    (s.asked .disarm f →
      let result : Result := if s.governor.state = .safe then .wrongState .safe none
        else match unsettled with
          | some st => .wrongState s.governor.state (some st)
          | none => .ok
      (result ≠ .ok → ∃ t, exec .disarm s = .next t ∧ s.onlyAnswers f (reply result) t)
        ∧ (result = .ok → ∃ t, exec .disarm s = .next t ∧ s.answered f (reply .ok) t ∧ s.routesBehind t
          ∧ s.passesBehind t
          ∧ s.countsBehind [] t ∧ t.governor = { s.governor with state := .safe, causes := 0 }
          ∧ (∀ n, t.ctx n = if (s.ctx n).state = .locked then { s.ctx n with state := .standby } else s.ctx n)
          ∧ (∀ r, Bank.at' t.dwell r = none) ∧ s.keepsBeyondLink [.governor, .axes, .dwell] t))
      ∧ (s.asked .stopAll f →
        (s.governor.state = .safe →
          ∃ t, exec .stopAll s = .next t ∧ s.onlyAnswers f (reply (.wrongState .safe none)) t)
          ∧ (s.governor.state ≠ .safe → ∃ t, exec .stopAll s = .next t ∧ s.answered f (reply .ok) t
            ∧ s.routesBehind t
            ∧ s.passesBehind t ∧ s.countsBehind [] t ∧ s.tripRaised .stopRequest t ∧ s.keepsConditions t
            ∧ s.latches (if s.governor.state = .armed then [.trip] else []) t
            ∧ t.engine = { s.engine with notices := s.noticesAtTrip }
            ∧ s.keepsBeyondLink [.governor, .latch, .engine] t))
      ∧ (s.asked .resetTrip f →
        let held := s.governor.causes
        let result : Result := if s.governor.state ≠ .tripped then .wrongState s.governor.state none
          else if held.getLsbD 0 then .causeActive .stopIn none
          else if held.getLsbD 1 then .causeActive .chain none
          else if held.getLsbD 2 then .causeActive .cadence none
          else if held.getLsbD 3 then .causeActive .brakeStuck none
          else match unsettled with
            | some st => .wrongState .tripped (some st)
            | none => .ok
        (result ≠ .ok → ∃ t, exec .resetTrip s = .next t ∧ s.onlyAnswers f (reply result) t)
          ∧ (result = .ok → ∃ t, exec .resetTrip s = .next t ∧ s.answered f (reply .ok) t ∧ s.routesBehind t
            ∧ s.passesBehind t
            ∧ s.countsBehind [] t ∧ t.governor = { s.governor with state := .armed, causes := 0 }
            ∧ s.keepsBeyondLink [.governor] t))

/-- RELEASE: refused in the order of R105 and R106 with nothing changed; accepted, every covered axis stands at its
last report with its fault record and ring cleared, RELEASING toward FOLLOW with its open flag from the sense, or at
once in FOLLOW when every covered brake is already open (R105 to R108, R166). -/
def Obligations.ReleaseRequest : Prop :=
  ∀ (s : State) (f : Frame), s.QueuesLaw → s.TablesLaw → s.FlagsLaw → s.CausesLaw → s.ContestsLaw →
    s.asked .release f →
    let kind := u8 f.payload 1
    let index := u8 f.payload 2
    let refuses (r : Result) : Prop := ∃ t, exec .release s = .next t ∧ s.onlyAnswers f (reply r) t
    let cause (n : AxisId) : Option RefusalCode :=
      if (s.ctx n).fresh = false then some .notFresh
      else if s.filtered (.eot n) then some .eot
      else match (s.ctx n).lastReport with
        | none => some .driveFault
        | some r => if r.ready = false ∨ r.fault = true then some .driveFault
          else if r.position < (s.entry n).lo ∨ ((s.entry n).hi : Int) < r.position then some .outside else none
    let runs (axes : List AxisId) (rig : Option RigId) : Prop :=
      (∀ n ∈ axes.find? (fun n => (s.ctx n).state ≠ .locked), refuses (.wrongState .armed (some (s.ctx n).state)))
        ∧ ((∀ n ∈ axes, (s.ctx n).state = .locked) →
          (∀ n ∈ axes.find? (fun n => (cause n).isSome), ∀ c ∈ cause n, refuses (.causeActive c (some n.val)))
            ∧ ((∀ n ∈ axes, cause n = none) →
              (∀ r ∈ rig, s.rigHoldActive r = true → refuses (.causeActive .rigHold (some r.val)))
                ∧ ((∀ r ∈ rig, s.rigHoldActive r = false) → s.armKeyOff = true → refuses (.causeActive .armKey none))
                ∧ ((∀ r ∈ rig, s.rigHoldActive r = false) → s.armKeyOff = false →
                  ∃ t, exec .release s = .next t ∧ s.answered f (reply .ok) t ∧ s.routesBehind t ∧ s.passesBehind t
                    ∧ s.countsBehind [] t
                    ∧ (∀ n ∈ axes, ∀ r ∈ (s.ctx n).lastReport, t.ctx n = { s.ctx n with
                        state := if ∀ m ∈ axes, s.senseReleased m = true then .follow
                          else .releasing .follow (s.senseReleased n)
                        p := r.position, v := 0, t := r.position, fault := none, later := 0, ring := [] })
                    ∧ s.keepsAxesBut axes t ∧ s.contestsRestart t
                    ∧ s.keepsBeyondLink [.axes, .contests] t)))
    (s.governor.state ≠ .armed → refuses (.wrongState s.governor.state none))
      ∧ (s.governor.state = .armed →
        (1 < kind → refuses .badRequest)
          ∧ (kind = 0 → 8 ≤ index → refuses .badIndex) ∧ (kind = 1 → 4 ≤ index → refuses .badIndex)
          ∧ (∀ n : AxisId, kind = 0 → index = n.val →
            (s.rigOf n ≠ none → refuses .wrongTarget) ∧ (s.rigOf n = none → runs [n] none))
          ∧ (∀ r : RigId, kind = 1 → index = r.val →
            ((s.rig r).members = [] → refuses .wrongTarget)
              ∧ ((s.rig r).members ≠ [] → runs (s.rig r).members (some r))))

/-- RECOVER and LOCK: refused in their order with nothing changed; RECOVER starts a line outside its envelope toward
the bound as RELEASE starts one inside; LOCK turns motion into a NORMAL ramp and RELEASING into LOCKED (R108, R110,
R111, R122, R166). A LOCK of a rig is refused with the state of the first member in list order that breaks the
condition. That RECOVER's CAUSE_ACTIVE carries no index, and that a rig's first member fixes the condition for LOCK,
are the model's readings (log 18, log 29). -/
def Obligations.RecoverAndLockRequests : Prop :=
  ∀ (s : State) (f : Frame), s.QueuesLaw → s.FlagsLaw → s.CausesLaw → s.ContestsLaw →
    let kind := u8 f.payload 1
    let index := u8 f.payload 2
    let refuses (c : Instr) (r : Result) : Prop := ∃ t, exec c s = .next t ∧ s.onlyAnswers f (reply r) t
    let wrong (st : AxisState) : Result := .wrongState .armed (some st)
    let others (n : AxisId) : Option AxisId := (s.others n).find? fun m => (s.ctx m).state ≠ .locked
    let locks (axes : List AxisId) : Prop :=
      ∃ t, exec .lock s = .next t ∧ s.answered f (reply .ok) t ∧ s.routesBehind t
        ∧ s.passesBehind t ∧ s.countsBehind [] t
        ∧ (∀ n ∈ axes, t.ctx n = { s.ctx n with
            state := if (s.ctx n).state.code = 3 then .locked else .stopping .normal })
        ∧ s.keepsAxesBut axes t ∧ s.contestsRestart t ∧ s.keepsBeyondLink [.axes, .contests] t
    (s.asked .recover f →
      (s.governor.state ≠ .armed → refuses .recover (.wrongState s.governor.state none))
        ∧ (s.governor.state = .armed → 8 ≤ kind → refuses .recover .badIndex)
        ∧ (s.governor.state = .armed → ∀ n : AxisId, kind = n.val →
          ((s.ctx n).state ≠ .locked → refuses .recover (wrong (s.ctx n).state))
            ∧ ((s.ctx n).state = .locked →
              (∀ m ∈ others n, refuses .recover (wrong (s.ctx m).state))
                ∧ (others n = none →
                  let x := s.ctx n
                  ((x.fresh = false → refuses .recover (.causeActive .notFresh none))
                    ∧ (x.fresh = true →
                      (x.driveReady = false → refuses .recover (.causeActive .driveFault none))
                        ∧ ∀ r ∈ x.lastReport, r.ready = true → r.fault = false →
                          let outside : Prop := r.position < (s.entry n).lo ∨ ((s.entry n).hi : Int) < r.position
                          (s.armKeyOff = true → refuses .recover (.causeActive .armKey none))
                            ∧ (s.armKeyOff = false → ¬ outside → refuses .recover (.causeActive .inside none))
                            ∧ (s.armKeyOff = false → outside →
                              ∃ t, exec .recover s = .next t ∧ s.answered f (reply .ok) t ∧ s.routesBehind t
                                ∧ s.passesBehind t
                                ∧ s.countsBehind [] t
                                ∧ t.ctx n = { x with
                                    state := if s.senseReleased n then .recovering else .releasing .recovering false
                                    p := r.position, v := 0, t := r.position, fault := none, later := 0, ring := [] }
                                ∧ s.keepsAxesBut [n] t ∧ s.contestsRestart t
                                ∧ s.keepsBeyondLink [.axes, .contests] t)))))))
      ∧ (s.asked .lock f →
        (s.governor.state ≠ .armed → refuses .lock (.wrongState s.governor.state none))
          ∧ (s.governor.state = .armed →
            (1 < kind → refuses .lock .badRequest)
              ∧ (kind = 0 → 8 ≤ index → refuses .lock .badIndex) ∧ (kind = 1 → 4 ≤ index → refuses .lock .badIndex)
              ∧ (∀ n : AxisId, kind = 0 → index = n.val →
                let st := (s.ctx n).state
                (s.rigOf n ≠ none → st.recoveringOrToward = false → refuses .lock .wrongTarget)
                  ∧ (s.rigOf n = none ∨ st.recoveringOrToward = true →
                    (st.lockableAlone = false → refuses .lock (wrong st))
                      ∧ (st = .follow ∨ st = .recovering → locks [n])
                      ∧ (st.code = 3 → locks (n :: (s.others n).filter fun m => (s.ctx m).state.code = 3))))
              ∧ ∀ r : RigId, kind = 1 → index = r.val →
                let members := (s.rig r).members
                let following (m : AxisId) : Bool := (s.ctx m).state = .follow
                let releasing (m : AxisId) : Bool := (s.ctx m).state.towardFollow
                (members = [] → refuses .lock .wrongTarget)
                  ∧ (members ≠ [] → (members.all following = true ∨ members.all releasing = true) → locks members)
                  ∧ ∀ lead rest, members = lead :: rest →
                    (following lead = true →
                      ∀ m ∈ rest.find? (fun m => !following m), refuses .lock (wrong (s.ctx m).state))
                      ∧ (releasing lead = true →
                        ∀ m ∈ rest.find? (fun m => !releasing m), refuses .lock (wrong (s.ctx m).state))
                      ∧ (following lead = false → releasing lead = false →
                        refuses .lock (wrong (s.ctx lead).state))))

/-- ACK_EVENTS clears the flags its mask names by their numbers and returns what is left, or is refused whole when
the mask names a flag beyond number 21; READ_COUNTERS returns the counters selected in their order and clears them
when asked (R21, R182 to R185). -/
def Obligations.AcksAndCounters : Prop :=
  ∀ (s : State) (f : Frame), s.QueuesLaw →
    let o := f.payload
    let mask := u8 o 1 + 256 * u8 o 2 + 65536 * u8 o 3
    let counts (l : List Count) : Reply := { result := .ok, data := l.flatMap fun c => put16 c.toNat }
    let number (e : EventFlag) : Nat := match e with
      | .powerUp => 0
      | .trip => 1
      | .axisFault n => 2 + n.val
      | .rigFault r => 10 + r.val
      | .cadence => 14
      | .linkU => 15
      | .link .b0 => 16
      | .link .b1 => 17
      | .late .b0 => 18
      | .late .b1 => 19
      | .swap => 20
      | .mgmtDrop => 21
    let ofPort (p : PortId) : List Count :=
      [.good, .crc, .short, .tooLong, .framing, .rate, .overrun, .brk, .longBreak, .aborted].map (s.portCount p)
    let inOrder : List GlobalCounter :=
      [.badSetpoint, .duplicate, .seqGap, .jitter, .unrouted, .passBlocked, .crossed, .stale, .fwdDrop, .mgmtDrop]
        ++ allAxes.map .targetClamped ++ [.late .b0, .late .b1]
    let global : List Count := inOrder.map s.count
    (s.asked .ackEvents f →
      (2 ^ 22 ≤ mask → ∃ t, exec .ackEvents s = .next t ∧ s.onlyAnswers f (reply .badRequest) t)
        ∧ (mask < 2 ^ 22 → ∃ t, exec .ackEvents s = .next t
          ∧ (∀ e, t.hasEvent e = (s.hasEvent e && !mask.testBit (number e)))
          ∧ s.answered f ({ result := .ok, data := put24 t.latch.toNat } : Reply) t
          ∧ s.routesBehind t ∧ s.passesBehind t ∧ s.countsBehind [] t
          ∧ s.keepsBeyondLink [.latch] t))
      ∧ (s.asked .readCounters f →
        (3 < u8 o 1 → ∃ t, exec .readCounters s = .next t ∧ s.onlyAnswers f (reply .badIndex) t)
          ∧ (u8 o 1 ≤ 3 → 1 < u8 o 2 → ∃ t, exec .readCounters s = .next t ∧ s.onlyAnswers f (reply .badRequest) t)
          ∧ (∀ p, portCode (u8 o 1) = some p →
            (u8 o 2 = 0 → ∃ t, exec .readCounters s = .next t
              ∧ s.onlyAnswers f (counts (ofPort p)) t)
              ∧ (u8 o 2 = 1 → ∃ t, exec .readCounters s = .next t
                ∧ s.answered f (counts (ofPort p)) t ∧ s.routesBehind t ∧ s.passesBehind t
                ∧ (∀ q c, t.portCount q c = if q = p then 0 else s.portCount q c)
                ∧ (∀ c, (c ≠ .unrouted → c ≠ .passBlocked → t.count c = s.count c) ∧ s.count c ≤ t.count c)
                ∧ (s.u.fifo.tail = [] → ∀ c, t.count c = s.count c)
                ∧ s.keepsBeyondLink [] t))
          ∧ (u8 o 1 = 3 →
            (u8 o 2 = 0 → ∃ t, exec .readCounters s = .next t ∧ s.onlyAnswers f (counts global) t)
              ∧ (u8 o 2 = 1 → ∃ t, exec .readCounters s = .next t
                ∧ s.answered f (counts global) t ∧ s.routesBehind t ∧ s.passesBehind t
                ∧ (∀ q c, t.portCount q c = s.portCount q c)
                ∧ (∀ c, (c ≠ .unrouted → c ≠ .passBlocked → t.count c = 0)
                  ∧ (t.count c).toNat ≤ s.u.fifo.tail.length)
                ∧ (s.u.fifo.tail = [] → ∀ c, t.count c = 0)
                ∧ s.keepsBeyondLink [] t)))

/-- PORT_RESET: refused by an unknown port, and for DA and DB outside SAFE; taken, the port's receiver, FIFO,
counters and transmit queues start anew and a frame being sent is finished whole; the other ports stand, but for the
response on U and the passthrough that the frames behind the request place (R19, R22, R27, R31, R40). The level of
the receive line is an operand, the times of the last edge and stop bit stay, and a line at space is not heard until
it returns: the model's choices and reading (log 9, log 10, log 25). -/
def Obligations.PortResetRequest : Prop :=
  ∀ (s : State) (f : Frame) (mark : Bool), s.QueuesLaw → s.asked .portReset f →
    let restarted (p : PortId) (x : Receiver) : Prop := x.mode = .hunt false
      ∧ x.idleFrom = (if mark then some s.clock else none) ∧ x.heldSpace = !mark
      ∧ x.lastEdge = (s.port p).rx.lastEdge ∧ x.lastStop = (s.port p).rx.lastStop
    (2 < u8 f.payload 1 → ∃ t, exec (.portReset mark) s = .next t ∧ s.onlyAnswers f (reply .badIndex) t)
      ∧ (∀ p, portCode (u8 f.payload 1) = some p → p ≠ .u → s.governor.state ≠ .safe →
        ∃ t, exec (.portReset mark) s = .next t
          ∧ s.onlyAnswers f (reply (.wrongState s.governor.state none)) t)
      ∧ (∀ p b, portCode (u8 f.payload 1) = some p → branchOn s.router.mapping p = some b →
        s.governor.state = .safe →
        ∃ t, exec (.portReset mark) s = .next t ∧ s.answered f (reply .ok) t
          ∧ t.u.fifo <:+ s.u.fifo.tail ∧ (∀ r ∈ t.u.fifo.head?, t.judgeU r.frame = .engine)
          ∧ restarted p (t.port p).rx ∧ (t.port p).fifo = []
          ∧ (∀ q x, (s.port q).tx = some x → (t.port q).tx = some x)
          ∧ (∀ q c, t.portCount q c = if q = p then 0 else s.portCount q c)
          ∧ (∀ c, (c ≠ .unrouted → c ≠ .passBlocked → t.count c = s.count c) ∧ s.count c ≤ t.count c)
          ∧ (t.branch b).command = none
          ∧ (t.branch (otherBranch b)).command = (s.branch (otherBranch b)).command
          ∧ (s.branch (otherBranch b)).passthrough <+: (t.branch (otherBranch b)).passthrough
          ∧ (∀ q, q ≠ p → (t.port q).rx = (s.port q).rx)
          ∧ (∀ q, q ≠ p → q ≠ .u → (t.port q).fifo = (s.port q).fifo)
          ∧ (s.u.fifo.tail = [] → t.da.tx = s.da.tx ∧ t.db.tx = s.db.tx
            ∧ t.branch b = { command := none, passthrough := [] }
            ∧ t.branch (otherBranch b) = s.branch (otherBranch b) ∧ ∀ c, t.count c = s.count c)
          ∧ t.queues.forward = s.queues.forward ∧ t.queues.status = s.queues.status
          ∧ s.keepsBeyondLink [] t)
      ∧ (u8 f.payload 1 = 0 →
        ∃ t, exec (.portReset mark) s = .next t ∧ restarted .u t.u.rx ∧ t.u.fifo = []
          ∧ (s.u.tx = none → t.u.tx = some (sendingOf (responseFrame f (reply .ok)) s.clock)
            ∧ t.queues = { s.queues with status := none, responses := [], forward := [] })
          ∧ (s.u.tx ≠ none → t.u.tx = s.u.tx
            ∧ t.queues = { s.queues with
                status := none, responses := [responseFrame f (reply .ok)], forward := [] })
          ∧ (∀ q c, t.portCount q c = if q = .u then 0 else s.portCount q c)
          ∧ s.keepsBut [.port .u, .queues, .outputs] t)

/-- The arbiter chooses the oldest notice, then the due step, then the console's frame at U's head, then the drives'
frames, offering first the branch whose turn it is; it chooses nothing while a step is in flight. A request that finds
U's response FIFO full is dropped unanswered and counted; each command that takes work (the requests, TAKE_SETPOINT,
TAKE_REPORT, STEP_START and the seven notice commands) acts on no other work than its own row's (R55, R56, R177,
R178). That a command whose work is not chosen leaves the state alone is the model's choice (log
1). -/
def Obligations.UnansweredRequests : Prop :=
  (∀ s : State,
    let head (p : PortId) : Option Received :=
      (s.port p).fifo.head?.filter fun r => decide (s.judgeHead p r.frame = .engine)
    let turn := s.engine.nextBranch
    let p := portOf s.router.mapping turn
    let q := portOf s.router.mapping (otherBranch turn)
    (s.engine.inFlight ≠ none → s.arbiter = none)
      ∧ (s.engine.inFlight = none →
        (∀ n ∈ s.engine.notices.head?, s.arbiter = some (.notice n))
          ∧ (s.engine.notices = [] → s.engine.due = true → s.arbiter = some .step)
          ∧ (s.engine.notices = [] → s.engine.due = false →
            (∀ r ∈ head .u, s.arbiter = some (.console r))
              ∧ (head .u = none →
                (∀ r ∈ head p, s.arbiter = some (.drive p r (otherBranch turn)))
                  ∧ (head p = none → s.arbiter = (head q).map fun r => .drive q r turn)))))
  ∧
  (∀ (s : State) (r : Received) (mark : Bool), s.resetLow = false → s.arbiter = some (.console r) →
      r.frame.kind = 0x20 → 2 ≤ s.queues.responses.length →
      ∃ t, exec (r.frame.request.command mark) s = .next t ∧ s.routesBehind t ∧ (s.QueuesLaw → s.passesBehind t)
        ∧ t.u.tx = s.u.tx
        ∧ t.queues.responses = s.queues.responses ∧ s.latches [.mgmtDrop] t ∧ s.countsBehind [.mgmtDrop] t
        ∧ s.keepsBeyondLink [.latch] t)
    ∧ (∀ (s : State) (k : ReqKind) (mark : Bool),
      (∀ r, s.arbiter = some (.console r) → r.frame.kind ≠ 0x20 ∨ r.frame.request ≠ k) →
      ∃ t, exec (k.command mark) s = .next t ∧ s.keepsBut [.outputs] t)
    ∧ ∀ s : State,
      let idles (c : Instr) : Prop := ∃ t, exec c s = .next t ∧ s.keepsBut [.outputs] t
      let never (src : NoticeLine) : Prop := ∀ active activated, s.arbiter ≠ some (.notice (.line src active activated))
      ((∀ r, s.arbiter = some (.console r) → r.frame.kind ≠ 0x10) → idles .takeSetpoint)
        ∧ ((∀ p r next, s.arbiter ≠ some (.drive p r next)) → idles .takeReport)
        ∧ (s.arbiter ≠ some .step → idles .stepStart)
        ∧ ((∀ n, never (.sns n)) → idles .senseNotice)
        ∧ ((∀ n, never (.eot n)) → idles .eotNotice)
        ∧ (never .stopIn → never .clearIn → idles .stopClearNotice)
        ∧ ((∀ k, (Bank.at' s.lineTable k).fn = .rigHoldIn → never (.gl k)) → idles .rigHoldNotice)
        ∧ ((∀ k, (Bank.at' s.lineTable k).fn = .armKeyIn → never (.gl k)) → idles .armKeyNotice)
        ∧ ((∀ n, s.arbiter ≠ some (.notice (.contest n))) → idles .brakeContestNotice)
        ∧ (s.arbiter ≠ some (.notice .tripEntry) → idles .tripEntry)

/-! ## Notices -/

/-- SENSE_NOTICE sets the open flag of a releasing axis, and while ARMED opens a lone or recovering axis, or a whole
rig when every member is open; in any other state it changes nothing. STOP_CLEAR_NOTICE and ARM_KEY_NOTICE only leave
the list (R54, R108, R159, R163). -/
def Obligations.SenseAndIdleNotices : Prop :=
  (∀ (s : State) (n : AxisId) (active activated : Bool), s.resetLow = false →
      s.arbiter = some (.notice (.line (.sns n) active activated)) →
      let x := s.ctx n
      let ready : List AxisId := match s.rigOf n with
        | none => [n]
        | some r => (s.rig r).members
      ∃ t, exec .senseNotice s = .next t ∧ t.engine = { s.engine with notices := s.engine.notices.tail }
        ∧ (x.state.code ≠ 3 → s.keepsBut [.engine, .outputs] t)
        ∧ (∀ o, x.state = .releasing .recovering o →
          t.ctx n = (if active = true ∧ s.governor.state = .armed then { x with state := .recovering, v := 0 }
              else { x with state := .releasing .recovering active })
            ∧ s.keepsAxesBut [n] t ∧ s.keepsBut [.engine, .axes, .outputs] t)
        ∧ (∀ o, x.state = .releasing .follow o →
          let opens : Prop := s.governor.state = .armed ∧ active = true
            ∧ ∀ m ∈ ready, m ≠ n → (s.ctx m).state = .releasing .follow true
          (opens → (∀ m ∈ ready, t.ctx m = { s.ctx m with state := .follow, v := 0 })
            ∧ s.keepsAxesBut ready t ∧ s.keepsBut [.engine, .axes, .outputs] t)
            ∧ (¬ opens → t.ctx n = { x with state := .releasing .follow active } ∧ s.keepsAxesBut [n] t
              ∧ s.keepsBut [.engine, .axes, .outputs] t)))
    ∧ (∀ (s : State) (src : NoticeLine) (active activated : Bool), s.resetLow = false →
      s.arbiter = some (.notice (.line src active activated)) → src = .stopIn ∨ src = .clearIn →
      ∃ t, exec .stopClearNotice s = .next t ∧ t.engine = { s.engine with notices := s.engine.notices.tail }
        ∧ s.keepsBut [.engine, .outputs] t)
    ∧ ∀ (s : State) (k : GenId) (active activated : Bool), s.resetLow = false →
      s.arbiter = some (.notice (.line (.gl k) active activated)) → (Bank.at' s.lineTable k).fn = .armKeyIn →
      ∃ t, exec .armKeyNotice s = .next t ∧ t.engine = { s.engine with notices := s.engine.notices.tail }
        ∧ s.keepsBut [.engine, .outputs] t

/-- EOT_NOTICE raises EOT when its activated flag is set; BRAKE_CONTEST_NOTICE raises BRAKE_NOT_OPEN; RIG_HOLD_NOTICE
raises RIG_HOLD on a lead in FOLLOW or RELEASING toward it whose record does not hold it yet (R54, R135, R140, R164,
R167). -/
def Obligations.RaisingNotices : Prop :=
  ∀ s : State, s.resetLow = false → s.TablesLaw → s.FlagsLaw → s.ContestsLaw →
    let taken := s.setNotices s.engine.notices.tail
    (∀ (n : AxisId) (active activated : Bool), s.arbiter = some (.notice (.line (.eot n) active activated)) →
      ∃ t, exec .eotNotice s = .next t
        ∧ (activated = true → taken.raised n .eot t) ∧ (activated = false → taken.keepsBut [.outputs] t))
      ∧ (∀ n : AxisId, s.arbiter = some (.notice (.contest n)) →
        ∃ t, exec .brakeContestNotice s = .next t ∧ taken.raised n .brakeNotOpen t)
      ∧ ∀ (k : GenId) (active activated : Bool), s.arbiter = some (.notice (.line (.gl k) active activated)) →
        (Bank.at' s.lineTable k).fn = .rigHoldIn →
        let members := (s.rig (Bank.at' s.lineTable k).arg).members
        let acts (lead : AxisId) : Prop := activated = true ∧ (s.ctx lead).state.holdable = true
          ∧ (s.ctx lead).holds .rigHold = false
        ∃ t, exec .rigHoldNotice s = .next t
          ∧ (∀ lead ∈ members.head?, acts lead → taken.raised lead .rigHold t)
          ∧ ((∀ lead ∈ members.head?, ¬ acts lead) → taken.keepsBut [.outputs] t)

/-- TRIP_ENTRY: every moving axis takes the FAULT ramp, DWELLING holds, RELEASING locks, and the rig runtimes are
emptied; no cause is recorded and no event latched (R124, R125, R166). -/
def Obligations.TripEntryTaken : Prop :=
  ∀ s : State, s.resetLow = false → s.FlagsLaw → s.ContestsLaw → s.arbiter = some (.notice .tripEntry) →
    ∃ t, exec .tripEntry s = .next t ∧ t.engine = { s.engine with notices := s.engine.notices.tail }
      ∧ (∀ n, t.ctx n = { s.ctx n with
          state := match (s.ctx n).state with
            | .follow => .stopping .fault
            | .parking => .stopping .fault
            | .recovering => .stopping .fault
            | .stopping _ => .stopping .fault
            | .dwelling => .holding (s.entry n).settle
            | .releasing _ _ => .locked
            | other => other })
      ∧ (∀ r, Bank.at' t.dwell r = none) ∧ s.contestsRestart t
      ∧ s.keepsBut [.engine, .axes, .dwell, .contests, .outputs] t

/-! ## Lines -/

/-- INPUT_PIN_CHANGE and INPUT_ACCEPTED: a change away from the accepted level is noted, a return drops the note, a
filter time of 0 accepts at once; acceptance takes the pin's level and, by the line, places its notice, reports its
condition or acts on its brake contest (R147, R148, R160, R162, R167, R168). How the clock moves, that a line with
nothing noted accepts nothing, that a change that has stood its filter time is accepted before the pin change that
ends it, and that governor control hears of STOP_IN and CLEAR_IN before their notice is placed are the model's (log
1, log 2, log 3, log 12, log 19). -/
def Obligations.PinsAndFilters : Prop :=
  (∀ (s : State) (l : LineId) (high : Bool) (w : Nat), s.resetLow = false →
      let x := s.line l
      let now := s.clock + BitVec.ofNat 50 w
      let overdue : Prop := x.pin ≠ high
        ∧ ∃ τ ∈ x.noted, reached (ticksOf (addMicros τ (s.filterMicros l))) now = true
      (overdue → ∃ z, exec (.inputAccepted l) s = .next z
        ∧ exec (.inputPinChange l high w) s = exec (.inputPinChange l high (now - z.clock).toNat) z)
      ∧ ∃ t, exec (.inputPinChange l high w) s = .next t
        ∧ (¬ overdue → t.clock = now)
        ∧ (x.pin = high → s.keepsBut [.clock, .outputs] t)
        ∧ (x.pin ≠ high → ¬ overdue → l.filtered = false →
          t.line l = { x with pin := high } ∧ s.keepsLinesBut [l] t ∧ s.keepsBut [.clock, .lines, .outputs] t)
        ∧ (x.pin ≠ high → ¬ overdue → l.filtered = true → high = x.accepted →
          t.line l = { x with pin := high, noted := none } ∧ s.keepsLinesBut [l] t
            ∧ s.keepsBut [.clock, .lines, .outputs] t)
        ∧ (x.pin ≠ high → ¬ overdue → l.filtered = true → high ≠ x.accepted → 0 < s.filterMicros l →
          t.line l = { x with pin := high, noted := some (microsOf now) } ∧ s.keepsLinesBut [l] t
            ∧ s.keepsBut [.clock, .lines, .outputs] t)
        ∧ (x.pin ≠ high → ¬ overdue → high ≠ x.accepted → ∀ k, l = .gl k → (Bank.at' s.lineTable k).filter = 0 →
          t.line l = { pin := high, accepted := high, noted := none } ∧ s.keepsLinesBut [l] t
            ∧ t.engine = { s.engine with
                notices := if (Bank.at' s.lineTable k).fn.placesNotices then
                    placeLineNotice (.gl k) (high != (Bank.at' s.lineTable k).invert) s.engine.notices
                  else s.engine.notices }
            ∧ s.keepsBut [.clock, .lines, .engine, .outputs] t))
    ∧ (∀ (s : State) (l : LineId) (τ : Micros), s.resetLow = false → l.filtered = true →
      (s.line l).noted = some τ →
      let x := s.line l
      let places (src : NoticeLine) (active : Bool) (t : State) : Prop :=
        t.engine = { s.engine with notices := placeLineNotice src active s.engine.notices }
      let base : List Part := [.clock, .lines, .outputs]
      ∃ t, exec (.inputAccepted l) s = .next t ∧ t.clock = s.clockAt (ticksOf (addMicros τ (s.filterMicros l)))
        ∧ t.line l = { x with accepted := x.pin, noted := none } ∧ s.keepsLinesBut [l] t
        ∧ (l = .clearOut ∨ (∃ n, l = .brk n) → s.keepsBut base t)
        ∧ (∀ n, l = .eot n → places (.eot n) (!x.pin) t ∧ s.keepsBut (.engine :: base) t)
        ∧ (∀ k, l = .gl k →
          let e := Bank.at' s.lineTable k
          (e.fn.placesNotices = true → places (.gl k) (x.pin != e.invert) t ∧ s.keepsBut (.engine :: base) t)
            ∧ (e.fn.placesNotices = false → s.keepsBut base t))
        ∧ (∀ n, l = .sns n → s.FlagsLaw → places (.sns n) x.pin t
          ∧ t.governor = (if s.governor.stuck = t.anyStuck then s.governor
              else { s.governor with
                stuck := false
                causes := if s.governor.state = .safe then s.governor.causes
                  else causeDrop s.governor.causes .brakeStuck })
          ∧ (∀ m, m ≠ n → t.contest m = s.contest m)
          ∧ (s.contest n = none → t.contest n = none)
          ∧ (∀ c, s.contest n = some c → x.pin = c.permission → t.contest n = some { c with
              stuck := false
              phase := match c.phase with
                | .settling d => .settling d
                | .watching _ => .watching none })
          ∧ (∀ c, s.contest n = some c → x.pin ≠ c.permission → t.contest n = some { c with
              phase := match c.phase with
                | .settling d => .settling d
                | .watching _ => .watching (some (addMicros t.timeBase (s.globals.tb * 1000))) })
          ∧ s.keepsBut ([.engine, .contests, .governor] ++ base) t)
        ∧ (l = .stopIn →
          t.governor.stop = !x.pin
            ∧ (x.pin = false → s.governor.stop = false → s.tripRaised .stopIn t
              ∧ t.governor = { s.governor with
                  state := t.governor.state, causes := t.governor.causes, stop := true }
              ∧ s.latches (if s.governor.state = .armed then [.trip] else []) t
              ∧ t.engine = { s.engine with notices := placeLineNotice .stopIn true s.noticesAtTrip })
            ∧ (x.pin = true → s.governor.stop = true → t.latch = s.latch ∧ places .stopIn false t
              ∧ t.governor = { s.governor with
                  stop := false
                  causes := if s.governor.state = .safe then s.governor.causes
                    else causeDrop s.governor.causes .stopIn })
            ∧ s.keepsBut ([.engine, .governor, .latch] ++ base) t)
        ∧ (l = .clearIn →
          t.governor.chain = (s.globals.chainUse && !x.pin)
            ∧ (s.globals.chainUse = true → x.pin = false → s.governor.chain = false → s.tripRaised .chain t
              ∧ t.governor = { s.governor with
                  state := t.governor.state, causes := t.governor.causes, chain := true }
              ∧ s.latches (if s.governor.state = .armed then [.trip] else []) t
              ∧ t.engine = { s.engine with notices := placeLineNotice .clearIn false s.noticesAtTrip })
            ∧ (s.globals.chainUse = false → s.governor.chain = false →
              t.governor = s.governor ∧ t.latch = s.latch ∧ places .clearIn x.pin t)
            ∧ (s.globals.chainUse = true → x.pin = true → s.governor.chain = true →
              t.latch = s.latch ∧ places .clearIn true t
                ∧ t.governor = { s.governor with
                    chain := false
                    causes := if s.governor.state = .safe then s.governor.causes
                      else causeDrop s.governor.causes .chain })
            ∧ s.keepsBut ([.engine, .governor, .latch] ++ base) t))
    ∧ (∀ (s : State) (l : LineId), (s.line l).noted = none →
      ∃ t, exec (.inputAccepted l) s = .next t ∧ s.keepsBut [.outputs] t)
    ∧ ∀ (src : NoticeLine) (active : Bool) (l : List Notice),
      (l.any (Notice.fromLine src) = false → placeLineNotice src active l = l ++ [.line src active active])
        ∧ ∀ a was act b, l = a ++ .line src was act :: b → a.any (Notice.fromLine src) = false →
          b.any (Notice.fromLine src) = false →
          placeLineNotice src active l = a ++ .line src active (act || active) :: b

/-- SETTLE_EXPIRY and MISMATCH_EXPIRY: where the sense disagrees with the permission, a brake contest notice with
permission on, BRAKE_STUCK with permission off; where it agrees at the settle expiry the contest only watches on
(R149, R166 to R168). How the clock moves, that an expiry where there is no such time, or no contest, leaves the
state, and what a second expiry beside a waiting notice does are the model's choices (log 1, log 2, log 3, log 26). -/
def Obligations.ContestExpiries : Prop :=
  (∀ (s : State) (n : AxisId), s.contest n = none ∨ (∃ c ∈ s.contest n, c.phase = .watching none) →
    (∃ t, exec (.settleExpiry n) s = .next t ∧ s.keepsBut [.outputs] t)
      ∧ ∃ t, exec (.mismatchExpiry n) s = .next t ∧ s.keepsBut [.outputs] t)
  ∧ ∀ (s : State) (n : AxisId) (c : Contest), s.resetLow = false → s.FlagsLaw → s.contest n = some c →
    let watching : Contest := { c with phase := .watching none }
    let fails (t : State) : Prop :=
      (c.permission = true →
        t.contest n = some watching
          ∧ t.engine = { s.engine with notices := placeOnce (.contest n) s.engine.notices }
          ∧ s.keepsBut [.clock, .contests, .engine, .outputs] t)
        ∧ (c.permission = false →
          t.contest n = some { watching with stuck := true } ∧ t.governor.stuck = true
            ∧ (s.governor.stuck = true → s.keepsBut [.clock, .contests, .outputs] t)
            ∧ (s.governor.stuck = false → s.tripRaised .brakeStuck t
              ∧ t.governor = { s.governor with
                  state := t.governor.state, causes := t.governor.causes, stuck := true }
              ∧ s.latches (if s.governor.state = .armed then [.trip] else []) t
              ∧ t.engine = { s.engine with
                  notices := if s.governor.state = .armed then placeOnce .tripEntry s.engine.notices
                    else s.engine.notices }
              ∧ s.keepsBut [.clock, .contests, .governor, .latch, .engine, .outputs] t))
    (∀ τ, c.phase = .settling τ →
      ∃ t, exec (.settleExpiry n) s = .next t ∧ t.clock = s.clockAt (ticksOf τ)
        ∧ (∀ m, m ≠ n → t.contest m = s.contest m)
        ∧ (s.senseReleased n = c.permission →
          t.contest n = some watching ∧ s.keepsBut [.clock, .contests, .outputs] t)
        ∧ (s.senseReleased n ≠ c.permission → fails t))
      ∧ (∀ τ, c.phase = .watching (some τ) →
        ∃ t, exec (.mismatchExpiry n) s = .next t ∧ t.clock = s.clockAt (ticksOf τ)
          ∧ (∀ m, m ≠ n → t.contest m = s.contest m) ∧ fails t)
      ∧ (∀ o, c.phase = .watching o → ∃ t, exec (.settleExpiry n) s = .next t ∧ s.keepsBut [.outputs] t)
      ∧ ∀ τ, c.phase = .settling τ → ∃ t, exec (.mismatchExpiry n) s = .next t ∧ s.keepsBut [.outputs] t
end

