-- ==== Sys2Proof/Laws/State.lean ====
section
/-! SUPPORT. One lemma for each field after each update, so that no proof unfolds a record update; the banks and
the views of the state after each update. -/

namespace Sys2Proof.Machine

variable (s : State)

@[simp] theorem State.elapse_pending (w : Nat) : (s.elapse w).pending = s.pending := rfl
@[simp] theorem State.elapse_resetLow (w : Nat) : (s.elapse w).resetLow = s.resetLow := rfl
@[simp] theorem State.elapse_clock (w : Nat) : (s.elapse w).clock = s.clock + BitVec.ofNat 50 w := rfl
@[simp] theorem State.elapse_u (w : Nat) : (s.elapse w).u = s.u := rfl
@[simp] theorem State.elapse_da (w : Nat) : (s.elapse w).da = s.da := rfl
@[simp] theorem State.elapse_db (w : Nat) : (s.elapse w).db = s.db := rfl
@[simp] theorem State.elapse_router (w : Nat) : (s.elapse w).router = s.router := rfl
@[simp] theorem State.elapse_queues (w : Nat) : (s.elapse w).queues = s.queues := rfl
@[simp] theorem State.elapse_cadence (w : Nat) : (s.elapse w).cadence = s.cadence := rfl
@[simp] theorem State.elapse_engine (w : Nat) : (s.elapse w).engine = s.engine := rfl
@[simp] theorem State.elapse_axisTable (w : Nat) : (s.elapse w).axisTable = s.axisTable := rfl
@[simp] theorem State.elapse_rigTable (w : Nat) : (s.elapse w).rigTable = s.rigTable := rfl
@[simp] theorem State.elapse_globals (w : Nat) : (s.elapse w).globals = s.globals := rfl
@[simp] theorem State.elapse_lineTable (w : Nat) : (s.elapse w).lineTable = s.lineTable := rfl
@[simp] theorem State.elapse_axes (w : Nat) : (s.elapse w).axes = s.axes := rfl
@[simp] theorem State.elapse_dwell (w : Nat) : (s.elapse w).dwell = s.dwell := rfl
@[simp] theorem State.elapse_governor (w : Nat) : (s.elapse w).governor = s.governor := rfl
@[simp] theorem State.elapse_lines (w : Nat) : (s.elapse w).lines = s.lines := rfl
@[simp] theorem State.elapse_contests (w : Nat) : (s.elapse w).contests = s.contests := rfl
@[simp] theorem State.elapse_motion (w : Nat) : (s.elapse w).motion = s.motion := rfl
@[simp] theorem State.elapse_outputs (w : Nat) : (s.elapse w).outputs = s.outputs := rfl
@[simp] theorem State.elapse_latch (w : Nat) : (s.elapse w).latch = s.latch := rfl
@[simp] theorem State.elapse_counters (w : Nat) : (s.elapse w).counters = s.counters := rfl

@[simp] theorem State.setLine_pending (l : LineId) (x : Line) : (s.setLine l x).pending = s.pending := rfl
@[simp] theorem State.setLine_resetLow (l : LineId) (x : Line) : (s.setLine l x).resetLow = s.resetLow := rfl
@[simp] theorem State.setLine_clock (l : LineId) (x : Line) : (s.setLine l x).clock = s.clock := rfl
@[simp] theorem State.setLine_u (l : LineId) (x : Line) : (s.setLine l x).u = s.u := rfl
@[simp] theorem State.setLine_da (l : LineId) (x : Line) : (s.setLine l x).da = s.da := rfl
@[simp] theorem State.setLine_db (l : LineId) (x : Line) : (s.setLine l x).db = s.db := rfl
@[simp] theorem State.setLine_router (l : LineId) (x : Line) : (s.setLine l x).router = s.router := rfl
@[simp] theorem State.setLine_queues (l : LineId) (x : Line) : (s.setLine l x).queues = s.queues := rfl
@[simp] theorem State.setLine_cadence (l : LineId) (x : Line) : (s.setLine l x).cadence = s.cadence := rfl
@[simp] theorem State.setLine_engine (l : LineId) (x : Line) : (s.setLine l x).engine = s.engine := rfl
@[simp] theorem State.setLine_axisTable (l : LineId) (x : Line) : (s.setLine l x).axisTable = s.axisTable := rfl
@[simp] theorem State.setLine_rigTable (l : LineId) (x : Line) : (s.setLine l x).rigTable = s.rigTable := rfl
@[simp] theorem State.setLine_globals (l : LineId) (x : Line) : (s.setLine l x).globals = s.globals := rfl
@[simp] theorem State.setLine_lineTable (l : LineId) (x : Line) : (s.setLine l x).lineTable = s.lineTable := rfl
@[simp] theorem State.setLine_axes (l : LineId) (x : Line) : (s.setLine l x).axes = s.axes := rfl
@[simp] theorem State.setLine_dwell (l : LineId) (x : Line) : (s.setLine l x).dwell = s.dwell := rfl
@[simp] theorem State.setLine_governor (l : LineId) (x : Line) : (s.setLine l x).governor = s.governor := rfl
@[simp] theorem State.setLine_lines (l : LineId) (x : Line) : (s.setLine l x).lines = Bank.put s.lines l.idx x := rfl
@[simp] theorem State.setLine_contests (l : LineId) (x : Line) : (s.setLine l x).contests = s.contests := rfl
@[simp] theorem State.setLine_motion (l : LineId) (x : Line) : (s.setLine l x).motion = s.motion := rfl
@[simp] theorem State.setLine_outputs (l : LineId) (x : Line) : (s.setLine l x).outputs = s.outputs := rfl
@[simp] theorem State.setLine_latch (l : LineId) (x : Line) : (s.setLine l x).latch = s.latch := rfl
@[simp] theorem State.setLine_counters (l : LineId) (x : Line) : (s.setLine l x).counters = s.counters := rfl

@[simp] theorem State.setNotices_pending (l : List Notice) : (s.setNotices l).pending = s.pending := rfl
@[simp] theorem State.setNotices_resetLow (l : List Notice) : (s.setNotices l).resetLow = s.resetLow := rfl
@[simp] theorem State.setNotices_clock (l : List Notice) : (s.setNotices l).clock = s.clock := rfl
@[simp] theorem State.setNotices_u (l : List Notice) : (s.setNotices l).u = s.u := rfl
@[simp] theorem State.setNotices_da (l : List Notice) : (s.setNotices l).da = s.da := rfl
@[simp] theorem State.setNotices_db (l : List Notice) : (s.setNotices l).db = s.db := rfl
@[simp] theorem State.setNotices_router (l : List Notice) : (s.setNotices l).router = s.router := rfl
@[simp] theorem State.setNotices_queues (l : List Notice) : (s.setNotices l).queues = s.queues := rfl
@[simp] theorem State.setNotices_cadence (l : List Notice) : (s.setNotices l).cadence = s.cadence := rfl
@[simp] theorem State.setNotices_engine (l : List Notice) :
    (s.setNotices l).engine = { s.engine with notices := l } := rfl
@[simp] theorem State.setNotices_axisTable (l : List Notice) : (s.setNotices l).axisTable = s.axisTable := rfl
@[simp] theorem State.setNotices_rigTable (l : List Notice) : (s.setNotices l).rigTable = s.rigTable := rfl
@[simp] theorem State.setNotices_globals (l : List Notice) : (s.setNotices l).globals = s.globals := rfl
@[simp] theorem State.setNotices_lineTable (l : List Notice) : (s.setNotices l).lineTable = s.lineTable := rfl
@[simp] theorem State.setNotices_axes (l : List Notice) : (s.setNotices l).axes = s.axes := rfl
@[simp] theorem State.setNotices_dwell (l : List Notice) : (s.setNotices l).dwell = s.dwell := rfl
@[simp] theorem State.setNotices_governor (l : List Notice) : (s.setNotices l).governor = s.governor := rfl
@[simp] theorem State.setNotices_lines (l : List Notice) : (s.setNotices l).lines = s.lines := rfl
@[simp] theorem State.setNotices_contests (l : List Notice) : (s.setNotices l).contests = s.contests := rfl
@[simp] theorem State.setNotices_motion (l : List Notice) : (s.setNotices l).motion = s.motion := rfl
@[simp] theorem State.setNotices_outputs (l : List Notice) : (s.setNotices l).outputs = s.outputs := rfl
@[simp] theorem State.setNotices_latch (l : List Notice) : (s.setNotices l).latch = s.latch := rfl
@[simp] theorem State.setNotices_counters (l : List Notice) : (s.setNotices l).counters = s.counters := rfl

@[simp] theorem State.bump_pending (c : GlobalCounter) : (s.bump c).pending = s.pending := rfl
@[simp] theorem State.bump_resetLow (c : GlobalCounter) : (s.bump c).resetLow = s.resetLow := rfl
@[simp] theorem State.bump_clock (c : GlobalCounter) : (s.bump c).clock = s.clock := rfl
@[simp] theorem State.bump_u (c : GlobalCounter) : (s.bump c).u = s.u := rfl
@[simp] theorem State.bump_da (c : GlobalCounter) : (s.bump c).da = s.da := rfl
@[simp] theorem State.bump_db (c : GlobalCounter) : (s.bump c).db = s.db := rfl
@[simp] theorem State.bump_router (c : GlobalCounter) : (s.bump c).router = s.router := rfl
@[simp] theorem State.bump_queues (c : GlobalCounter) : (s.bump c).queues = s.queues := rfl
@[simp] theorem State.bump_cadence (c : GlobalCounter) : (s.bump c).cadence = s.cadence := rfl
@[simp] theorem State.bump_engine (c : GlobalCounter) : (s.bump c).engine = s.engine := rfl
@[simp] theorem State.bump_axisTable (c : GlobalCounter) : (s.bump c).axisTable = s.axisTable := rfl
@[simp] theorem State.bump_rigTable (c : GlobalCounter) : (s.bump c).rigTable = s.rigTable := rfl
@[simp] theorem State.bump_globals (c : GlobalCounter) : (s.bump c).globals = s.globals := rfl
@[simp] theorem State.bump_lineTable (c : GlobalCounter) : (s.bump c).lineTable = s.lineTable := rfl
@[simp] theorem State.bump_axes (c : GlobalCounter) : (s.bump c).axes = s.axes := rfl
@[simp] theorem State.bump_dwell (c : GlobalCounter) : (s.bump c).dwell = s.dwell := rfl
@[simp] theorem State.bump_governor (c : GlobalCounter) : (s.bump c).governor = s.governor := rfl
@[simp] theorem State.bump_lines (c : GlobalCounter) : (s.bump c).lines = s.lines := rfl
@[simp] theorem State.bump_contests (c : GlobalCounter) : (s.bump c).contests = s.contests := rfl
@[simp] theorem State.bump_motion (c : GlobalCounter) : (s.bump c).motion = s.motion := rfl
@[simp] theorem State.bump_outputs (c : GlobalCounter) : (s.bump c).outputs = s.outputs := rfl
@[simp] theorem State.bump_latch (c : GlobalCounter) : (s.bump c).latch = s.latch := rfl
@[simp] theorem State.bump_counters (c : GlobalCounter) :
    (s.bump c).counters = Bank.put s.counters c.idx (satInc (Bank.at' s.counters c.idx)) := rfl

@[simp] theorem State.latchEvent_pending (e : EventFlag) : (s.latchEvent e).pending = s.pending := rfl
@[simp] theorem State.latchEvent_resetLow (e : EventFlag) : (s.latchEvent e).resetLow = s.resetLow := rfl
@[simp] theorem State.latchEvent_clock (e : EventFlag) : (s.latchEvent e).clock = s.clock := rfl
@[simp] theorem State.latchEvent_u (e : EventFlag) : (s.latchEvent e).u = s.u := rfl
@[simp] theorem State.latchEvent_da (e : EventFlag) : (s.latchEvent e).da = s.da := rfl
@[simp] theorem State.latchEvent_db (e : EventFlag) : (s.latchEvent e).db = s.db := rfl
@[simp] theorem State.latchEvent_router (e : EventFlag) : (s.latchEvent e).router = s.router := rfl
@[simp] theorem State.latchEvent_queues (e : EventFlag) : (s.latchEvent e).queues = s.queues := rfl
@[simp] theorem State.latchEvent_cadence (e : EventFlag) : (s.latchEvent e).cadence = s.cadence := rfl
@[simp] theorem State.latchEvent_engine (e : EventFlag) : (s.latchEvent e).engine = s.engine := rfl
@[simp] theorem State.latchEvent_axisTable (e : EventFlag) : (s.latchEvent e).axisTable = s.axisTable := rfl
@[simp] theorem State.latchEvent_rigTable (e : EventFlag) : (s.latchEvent e).rigTable = s.rigTable := rfl
@[simp] theorem State.latchEvent_globals (e : EventFlag) : (s.latchEvent e).globals = s.globals := rfl
@[simp] theorem State.latchEvent_lineTable (e : EventFlag) : (s.latchEvent e).lineTable = s.lineTable := rfl
@[simp] theorem State.latchEvent_axes (e : EventFlag) : (s.latchEvent e).axes = s.axes := rfl
@[simp] theorem State.latchEvent_dwell (e : EventFlag) : (s.latchEvent e).dwell = s.dwell := rfl
@[simp] theorem State.latchEvent_governor (e : EventFlag) : (s.latchEvent e).governor = s.governor := rfl
@[simp] theorem State.latchEvent_lines (e : EventFlag) : (s.latchEvent e).lines = s.lines := rfl
@[simp] theorem State.latchEvent_contests (e : EventFlag) : (s.latchEvent e).contests = s.contests := rfl
@[simp] theorem State.latchEvent_motion (e : EventFlag) : (s.latchEvent e).motion = s.motion := rfl
@[simp] theorem State.latchEvent_outputs (e : EventFlag) : (s.latchEvent e).outputs = s.outputs := rfl
@[simp] theorem State.latchEvent_latch (e : EventFlag) :
    (s.latchEvent e).latch = s.latch ||| BitVec.twoPow 22 e.idx := rfl
@[simp] theorem State.latchEvent_counters (e : EventFlag) : (s.latchEvent e).counters = s.counters := rfl

@[simp] theorem State.setCtx_pending (n : AxisId) (x : Ctx) : (s.setCtx n x).pending = s.pending := rfl
@[simp] theorem State.setCtx_resetLow (n : AxisId) (x : Ctx) : (s.setCtx n x).resetLow = s.resetLow := rfl
@[simp] theorem State.setCtx_clock (n : AxisId) (x : Ctx) : (s.setCtx n x).clock = s.clock := rfl
@[simp] theorem State.setCtx_u (n : AxisId) (x : Ctx) : (s.setCtx n x).u = s.u := rfl
@[simp] theorem State.setCtx_da (n : AxisId) (x : Ctx) : (s.setCtx n x).da = s.da := rfl
@[simp] theorem State.setCtx_db (n : AxisId) (x : Ctx) : (s.setCtx n x).db = s.db := rfl
@[simp] theorem State.setCtx_router (n : AxisId) (x : Ctx) : (s.setCtx n x).router = s.router := rfl
@[simp] theorem State.setCtx_queues (n : AxisId) (x : Ctx) : (s.setCtx n x).queues = s.queues := rfl
@[simp] theorem State.setCtx_cadence (n : AxisId) (x : Ctx) : (s.setCtx n x).cadence = s.cadence := rfl
@[simp] theorem State.setCtx_engine (n : AxisId) (x : Ctx) : (s.setCtx n x).engine = s.engine := rfl
@[simp] theorem State.setCtx_axisTable (n : AxisId) (x : Ctx) : (s.setCtx n x).axisTable = s.axisTable := rfl
@[simp] theorem State.setCtx_rigTable (n : AxisId) (x : Ctx) : (s.setCtx n x).rigTable = s.rigTable := rfl
@[simp] theorem State.setCtx_globals (n : AxisId) (x : Ctx) : (s.setCtx n x).globals = s.globals := rfl
@[simp] theorem State.setCtx_lineTable (n : AxisId) (x : Ctx) : (s.setCtx n x).lineTable = s.lineTable := rfl
@[simp] theorem State.setCtx_axes (n : AxisId) (x : Ctx) : (s.setCtx n x).axes = Bank.put s.axes n x := rfl
@[simp] theorem State.setCtx_dwell (n : AxisId) (x : Ctx) : (s.setCtx n x).dwell = s.dwell := rfl
@[simp] theorem State.setCtx_governor (n : AxisId) (x : Ctx) : (s.setCtx n x).governor = s.governor := rfl
@[simp] theorem State.setCtx_lines (n : AxisId) (x : Ctx) : (s.setCtx n x).lines = s.lines := rfl
@[simp] theorem State.setCtx_contests (n : AxisId) (x : Ctx) : (s.setCtx n x).contests = s.contests := rfl
@[simp] theorem State.setCtx_motion (n : AxisId) (x : Ctx) : (s.setCtx n x).motion = s.motion := rfl
@[simp] theorem State.setCtx_outputs (n : AxisId) (x : Ctx) : (s.setCtx n x).outputs = s.outputs := rfl
@[simp] theorem State.setCtx_latch (n : AxisId) (x : Ctx) : (s.setCtx n x).latch = s.latch := rfl
@[simp] theorem State.setCtx_counters (n : AxisId) (x : Ctx) : (s.setCtx n x).counters = s.counters := rfl

@[simp] theorem State.setContest_pending (n : AxisId) (x : Option Contest) :
    (s.setContest n x).pending = s.pending := rfl
@[simp] theorem State.setContest_resetLow (n : AxisId) (x : Option Contest) :
    (s.setContest n x).resetLow = s.resetLow := rfl
@[simp] theorem State.setContest_clock (n : AxisId) (x : Option Contest) : (s.setContest n x).clock = s.clock := rfl
@[simp] theorem State.setContest_u (n : AxisId) (x : Option Contest) : (s.setContest n x).u = s.u := rfl
@[simp] theorem State.setContest_da (n : AxisId) (x : Option Contest) : (s.setContest n x).da = s.da := rfl
@[simp] theorem State.setContest_db (n : AxisId) (x : Option Contest) : (s.setContest n x).db = s.db := rfl
@[simp] theorem State.setContest_router (n : AxisId) (x : Option Contest) :
    (s.setContest n x).router = s.router := rfl
@[simp] theorem State.setContest_queues (n : AxisId) (x : Option Contest) :
    (s.setContest n x).queues = s.queues := rfl
@[simp] theorem State.setContest_cadence (n : AxisId) (x : Option Contest) :
    (s.setContest n x).cadence = s.cadence := rfl
@[simp] theorem State.setContest_engine (n : AxisId) (x : Option Contest) :
    (s.setContest n x).engine = s.engine := rfl
@[simp] theorem State.setContest_axisTable (n : AxisId) (x : Option Contest) :
    (s.setContest n x).axisTable = s.axisTable := rfl
@[simp] theorem State.setContest_rigTable (n : AxisId) (x : Option Contest) :
    (s.setContest n x).rigTable = s.rigTable := rfl
@[simp] theorem State.setContest_globals (n : AxisId) (x : Option Contest) :
    (s.setContest n x).globals = s.globals := rfl
@[simp] theorem State.setContest_lineTable (n : AxisId) (x : Option Contest) :
    (s.setContest n x).lineTable = s.lineTable := rfl
@[simp] theorem State.setContest_axes (n : AxisId) (x : Option Contest) : (s.setContest n x).axes = s.axes := rfl
@[simp] theorem State.setContest_dwell (n : AxisId) (x : Option Contest) : (s.setContest n x).dwell = s.dwell := rfl
@[simp] theorem State.setContest_governor (n : AxisId) (x : Option Contest) :
    (s.setContest n x).governor = s.governor := rfl
@[simp] theorem State.setContest_lines (n : AxisId) (x : Option Contest) : (s.setContest n x).lines = s.lines := rfl
@[simp] theorem State.setContest_contests (n : AxisId) (x : Option Contest) :
    (s.setContest n x).contests = Bank.put s.contests n x := rfl
@[simp] theorem State.setContest_motion (n : AxisId) (x : Option Contest) :
    (s.setContest n x).motion = s.motion := rfl
@[simp] theorem State.setContest_outputs (n : AxisId) (x : Option Contest) :
    (s.setContest n x).outputs = s.outputs := rfl
@[simp] theorem State.setContest_latch (n : AxisId) (x : Option Contest) : (s.setContest n x).latch = s.latch := rfl
@[simp] theorem State.setContest_counters (n : AxisId) (x : Option Contest) :
    (s.setContest n x).counters = s.counters := rfl

@[simp] theorem State.setDwell_pending (r : RigId) (x : Option Nat) : (s.setDwell r x).pending = s.pending := rfl
@[simp] theorem State.setDwell_resetLow (r : RigId) (x : Option Nat) : (s.setDwell r x).resetLow = s.resetLow := rfl
@[simp] theorem State.setDwell_clock (r : RigId) (x : Option Nat) : (s.setDwell r x).clock = s.clock := rfl
@[simp] theorem State.setDwell_u (r : RigId) (x : Option Nat) : (s.setDwell r x).u = s.u := rfl
@[simp] theorem State.setDwell_da (r : RigId) (x : Option Nat) : (s.setDwell r x).da = s.da := rfl
@[simp] theorem State.setDwell_db (r : RigId) (x : Option Nat) : (s.setDwell r x).db = s.db := rfl
@[simp] theorem State.setDwell_router (r : RigId) (x : Option Nat) : (s.setDwell r x).router = s.router := rfl
@[simp] theorem State.setDwell_queues (r : RigId) (x : Option Nat) : (s.setDwell r x).queues = s.queues := rfl
@[simp] theorem State.setDwell_cadence (r : RigId) (x : Option Nat) : (s.setDwell r x).cadence = s.cadence := rfl
@[simp] theorem State.setDwell_engine (r : RigId) (x : Option Nat) : (s.setDwell r x).engine = s.engine := rfl
@[simp] theorem State.setDwell_axisTable (r : RigId) (x : Option Nat) :
    (s.setDwell r x).axisTable = s.axisTable := rfl
@[simp] theorem State.setDwell_rigTable (r : RigId) (x : Option Nat) : (s.setDwell r x).rigTable = s.rigTable := rfl
@[simp] theorem State.setDwell_globals (r : RigId) (x : Option Nat) : (s.setDwell r x).globals = s.globals := rfl
@[simp] theorem State.setDwell_lineTable (r : RigId) (x : Option Nat) :
    (s.setDwell r x).lineTable = s.lineTable := rfl
@[simp] theorem State.setDwell_axes (r : RigId) (x : Option Nat) : (s.setDwell r x).axes = s.axes := rfl
@[simp] theorem State.setDwell_dwell (r : RigId) (x : Option Nat) :
    (s.setDwell r x).dwell = Bank.put s.dwell r x := rfl
@[simp] theorem State.setDwell_governor (r : RigId) (x : Option Nat) : (s.setDwell r x).governor = s.governor := rfl
@[simp] theorem State.setDwell_lines (r : RigId) (x : Option Nat) : (s.setDwell r x).lines = s.lines := rfl
@[simp] theorem State.setDwell_contests (r : RigId) (x : Option Nat) : (s.setDwell r x).contests = s.contests := rfl
@[simp] theorem State.setDwell_motion (r : RigId) (x : Option Nat) : (s.setDwell r x).motion = s.motion := rfl
@[simp] theorem State.setDwell_outputs (r : RigId) (x : Option Nat) : (s.setDwell r x).outputs = s.outputs := rfl
@[simp] theorem State.setDwell_latch (r : RigId) (x : Option Nat) : (s.setDwell r x).latch = s.latch := rfl
@[simp] theorem State.setDwell_counters (r : RigId) (x : Option Nat) : (s.setDwell r x).counters = s.counters := rfl

@[simp] theorem State.setCadence_pending (c : Cadence) : (s.setCadence c).pending = s.pending := rfl
@[simp] theorem State.setCadence_resetLow (c : Cadence) : (s.setCadence c).resetLow = s.resetLow := rfl
@[simp] theorem State.setCadence_clock (c : Cadence) : (s.setCadence c).clock = s.clock := rfl
@[simp] theorem State.setCadence_u (c : Cadence) : (s.setCadence c).u = s.u := rfl
@[simp] theorem State.setCadence_da (c : Cadence) : (s.setCadence c).da = s.da := rfl
@[simp] theorem State.setCadence_db (c : Cadence) : (s.setCadence c).db = s.db := rfl
@[simp] theorem State.setCadence_router (c : Cadence) : (s.setCadence c).router = s.router := rfl
@[simp] theorem State.setCadence_queues (c : Cadence) : (s.setCadence c).queues = s.queues := rfl
@[simp] theorem State.setCadence_cadence (c : Cadence) : (s.setCadence c).cadence = c := rfl
@[simp] theorem State.setCadence_engine (c : Cadence) : (s.setCadence c).engine = s.engine := rfl
@[simp] theorem State.setCadence_axisTable (c : Cadence) : (s.setCadence c).axisTable = s.axisTable := rfl
@[simp] theorem State.setCadence_rigTable (c : Cadence) : (s.setCadence c).rigTable = s.rigTable := rfl
@[simp] theorem State.setCadence_globals (c : Cadence) : (s.setCadence c).globals = s.globals := rfl
@[simp] theorem State.setCadence_lineTable (c : Cadence) : (s.setCadence c).lineTable = s.lineTable := rfl
@[simp] theorem State.setCadence_axes (c : Cadence) : (s.setCadence c).axes = s.axes := rfl
@[simp] theorem State.setCadence_dwell (c : Cadence) : (s.setCadence c).dwell = s.dwell := rfl
@[simp] theorem State.setCadence_governor (c : Cadence) : (s.setCadence c).governor = s.governor := rfl
@[simp] theorem State.setCadence_lines (c : Cadence) : (s.setCadence c).lines = s.lines := rfl
@[simp] theorem State.setCadence_contests (c : Cadence) : (s.setCadence c).contests = s.contests := rfl
@[simp] theorem State.setCadence_motion (c : Cadence) : (s.setCadence c).motion = s.motion := rfl
@[simp] theorem State.setCadence_outputs (c : Cadence) : (s.setCadence c).outputs = s.outputs := rfl
@[simp] theorem State.setCadence_latch (c : Cadence) : (s.setCadence c).latch = s.latch := rfl
@[simp] theorem State.setCadence_counters (c : Cadence) : (s.setCadence c).counters = s.counters := rfl

@[simp] theorem State.makeDue_pending : (s.makeDue).pending = s.pending := rfl
@[simp] theorem State.makeDue_resetLow : (s.makeDue).resetLow = s.resetLow := rfl
@[simp] theorem State.makeDue_clock : (s.makeDue).clock = s.clock := rfl
@[simp] theorem State.makeDue_u : (s.makeDue).u = s.u := rfl
@[simp] theorem State.makeDue_da : (s.makeDue).da = s.da := rfl
@[simp] theorem State.makeDue_db : (s.makeDue).db = s.db := rfl
@[simp] theorem State.makeDue_router : (s.makeDue).router = s.router := rfl
@[simp] theorem State.makeDue_queues : (s.makeDue).queues = s.queues := rfl
@[simp] theorem State.makeDue_cadence : (s.makeDue).cadence = s.cadence := rfl
@[simp] theorem State.makeDue_engine : (s.makeDue).engine = { s.engine with due := true } := rfl
@[simp] theorem State.makeDue_axisTable : (s.makeDue).axisTable = s.axisTable := rfl
@[simp] theorem State.makeDue_rigTable : (s.makeDue).rigTable = s.rigTable := rfl
@[simp] theorem State.makeDue_globals : (s.makeDue).globals = s.globals := rfl
@[simp] theorem State.makeDue_lineTable : (s.makeDue).lineTable = s.lineTable := rfl
@[simp] theorem State.makeDue_axes : (s.makeDue).axes = s.axes := rfl
@[simp] theorem State.makeDue_dwell : (s.makeDue).dwell = s.dwell := rfl
@[simp] theorem State.makeDue_governor : (s.makeDue).governor = s.governor := rfl
@[simp] theorem State.makeDue_lines : (s.makeDue).lines = s.lines := rfl
@[simp] theorem State.makeDue_contests : (s.makeDue).contests = s.contests := rfl
@[simp] theorem State.makeDue_motion : (s.makeDue).motion = s.motion := rfl
@[simp] theorem State.makeDue_outputs : (s.makeDue).outputs = s.outputs := rfl
@[simp] theorem State.makeDue_latch : (s.makeDue).latch = s.latch := rfl
@[simp] theorem State.makeDue_counters : (s.makeDue).counters = s.counters := rfl

@[simp] theorem State.drive_pending : (s.drive).pending = s.pending := rfl
@[simp] theorem State.drive_resetLow : (s.drive).resetLow = s.resetLow := rfl
@[simp] theorem State.drive_clock : (s.drive).clock = s.clock := rfl
@[simp] theorem State.drive_u : (s.drive).u = s.u := rfl
@[simp] theorem State.drive_da : (s.drive).da = s.da := rfl
@[simp] theorem State.drive_db : (s.drive).db = s.db := rfl
@[simp] theorem State.drive_router : (s.drive).router = s.router := rfl
@[simp] theorem State.drive_queues : (s.drive).queues = s.queues := rfl
@[simp] theorem State.drive_cadence : (s.drive).cadence = s.cadence := rfl
@[simp] theorem State.drive_engine : (s.drive).engine = s.engine := rfl
@[simp] theorem State.drive_axisTable : (s.drive).axisTable = s.axisTable := rfl
@[simp] theorem State.drive_rigTable : (s.drive).rigTable = s.rigTable := rfl
@[simp] theorem State.drive_globals : (s.drive).globals = s.globals := rfl
@[simp] theorem State.drive_lineTable : (s.drive).lineTable = s.lineTable := rfl
@[simp] theorem State.drive_axes : (s.drive).axes = s.axes := rfl
@[simp] theorem State.drive_dwell : (s.drive).dwell = s.dwell := rfl
@[simp] theorem State.drive_governor : (s.drive).governor = s.governor := rfl
@[simp] theorem State.drive_lines : (s.drive).lines = s.lines := rfl
@[simp] theorem State.drive_contests : (s.drive).contests = s.contests := rfl
@[simp] theorem State.drive_motion : (s.drive).motion = s.motion := rfl
@[simp] theorem State.drive_outputs : (s.drive).outputs = s.outputLevels := rfl
@[simp] theorem State.drive_latch : (s.drive).latch = s.latch := rfl
@[simp] theorem State.drive_counters : (s.drive).counters = s.counters := rfl

@[simp] theorem State.placeStatus_pending (f : Frame) : (s.placeStatus f).pending = s.pending := rfl
@[simp] theorem State.placeStatus_resetLow (f : Frame) : (s.placeStatus f).resetLow = s.resetLow := rfl
@[simp] theorem State.placeStatus_clock (f : Frame) : (s.placeStatus f).clock = s.clock := rfl
@[simp] theorem State.placeStatus_u (f : Frame) : (s.placeStatus f).u = s.u := rfl
@[simp] theorem State.placeStatus_da (f : Frame) : (s.placeStatus f).da = s.da := rfl
@[simp] theorem State.placeStatus_db (f : Frame) : (s.placeStatus f).db = s.db := rfl
@[simp] theorem State.placeStatus_router (f : Frame) : (s.placeStatus f).router = s.router := rfl
@[simp] theorem State.placeStatus_queues (f : Frame) :
    (s.placeStatus f).queues = { s.queues with status := some f } := rfl
@[simp] theorem State.placeStatus_cadence (f : Frame) : (s.placeStatus f).cadence = s.cadence := rfl
@[simp] theorem State.placeStatus_engine (f : Frame) : (s.placeStatus f).engine = s.engine := rfl
@[simp] theorem State.placeStatus_axisTable (f : Frame) : (s.placeStatus f).axisTable = s.axisTable := rfl
@[simp] theorem State.placeStatus_rigTable (f : Frame) : (s.placeStatus f).rigTable = s.rigTable := rfl
@[simp] theorem State.placeStatus_globals (f : Frame) : (s.placeStatus f).globals = s.globals := rfl
@[simp] theorem State.placeStatus_lineTable (f : Frame) : (s.placeStatus f).lineTable = s.lineTable := rfl
@[simp] theorem State.placeStatus_axes (f : Frame) : (s.placeStatus f).axes = s.axes := rfl
@[simp] theorem State.placeStatus_dwell (f : Frame) : (s.placeStatus f).dwell = s.dwell := rfl
@[simp] theorem State.placeStatus_governor (f : Frame) : (s.placeStatus f).governor = s.governor := rfl
@[simp] theorem State.placeStatus_lines (f : Frame) : (s.placeStatus f).lines = s.lines := rfl
@[simp] theorem State.placeStatus_contests (f : Frame) : (s.placeStatus f).contests = s.contests := rfl
@[simp] theorem State.placeStatus_motion (f : Frame) : (s.placeStatus f).motion = s.motion := rfl
@[simp] theorem State.placeStatus_outputs (f : Frame) : (s.placeStatus f).outputs = s.outputs := rfl
@[simp] theorem State.placeStatus_latch (f : Frame) : (s.placeStatus f).latch = s.latch := rfl
@[simp] theorem State.placeStatus_counters (f : Frame) : (s.placeStatus f).counters = s.counters := rfl

@[simp] theorem State.nextGseq_pending : (s.nextGseq).pending = s.pending := rfl
@[simp] theorem State.nextGseq_resetLow : (s.nextGseq).resetLow = s.resetLow := rfl
@[simp] theorem State.nextGseq_clock : (s.nextGseq).clock = s.clock := rfl
@[simp] theorem State.nextGseq_u : (s.nextGseq).u = s.u := rfl
@[simp] theorem State.nextGseq_da : (s.nextGseq).da = s.da := rfl
@[simp] theorem State.nextGseq_db : (s.nextGseq).db = s.db := rfl
@[simp] theorem State.nextGseq_router : (s.nextGseq).router = s.router := rfl
@[simp] theorem State.nextGseq_queues : (s.nextGseq).queues = s.queues := rfl
@[simp] theorem State.nextGseq_cadence : (s.nextGseq).cadence = s.cadence := rfl
@[simp] theorem State.nextGseq_engine : (s.nextGseq).engine = { s.engine with gseq := s.engine.gseq + 1 } := rfl
@[simp] theorem State.nextGseq_axisTable : (s.nextGseq).axisTable = s.axisTable := rfl
@[simp] theorem State.nextGseq_rigTable : (s.nextGseq).rigTable = s.rigTable := rfl
@[simp] theorem State.nextGseq_globals : (s.nextGseq).globals = s.globals := rfl
@[simp] theorem State.nextGseq_lineTable : (s.nextGseq).lineTable = s.lineTable := rfl
@[simp] theorem State.nextGseq_axes : (s.nextGseq).axes = s.axes := rfl
@[simp] theorem State.nextGseq_dwell : (s.nextGseq).dwell = s.dwell := rfl
@[simp] theorem State.nextGseq_governor : (s.nextGseq).governor = s.governor := rfl
@[simp] theorem State.nextGseq_lines : (s.nextGseq).lines = s.lines := rfl
@[simp] theorem State.nextGseq_contests : (s.nextGseq).contests = s.contests := rfl
@[simp] theorem State.nextGseq_motion : (s.nextGseq).motion = s.motion := rfl
@[simp] theorem State.nextGseq_outputs : (s.nextGseq).outputs = s.outputs := rfl
@[simp] theorem State.nextGseq_latch : (s.nextGseq).latch = s.latch := rfl
@[simp] theorem State.nextGseq_counters : (s.nextGseq).counters = s.counters := rfl

@[simp] theorem State.endStep_pending : (s.endStep).pending = s.pending := rfl
@[simp] theorem State.endStep_resetLow : (s.endStep).resetLow = s.resetLow := rfl
@[simp] theorem State.endStep_clock : (s.endStep).clock = s.clock := rfl
@[simp] theorem State.endStep_u : (s.endStep).u = s.u := rfl
@[simp] theorem State.endStep_da : (s.endStep).da = s.da := rfl
@[simp] theorem State.endStep_db : (s.endStep).db = s.db := rfl
@[simp] theorem State.endStep_router : (s.endStep).router = s.router := rfl
@[simp] theorem State.endStep_queues : (s.endStep).queues = s.queues := rfl
@[simp] theorem State.endStep_cadence : (s.endStep).cadence = s.cadence := rfl
@[simp] theorem State.endStep_engine : (s.endStep).engine = { s.engine with inFlight := none } := rfl
@[simp] theorem State.endStep_axisTable : (s.endStep).axisTable = s.axisTable := rfl
@[simp] theorem State.endStep_rigTable : (s.endStep).rigTable = s.rigTable := rfl
@[simp] theorem State.endStep_globals : (s.endStep).globals = s.globals := rfl
@[simp] theorem State.endStep_lineTable : (s.endStep).lineTable = s.lineTable := rfl
@[simp] theorem State.endStep_axes : (s.endStep).axes = s.axes := rfl
@[simp] theorem State.endStep_dwell : (s.endStep).dwell = s.dwell := rfl
@[simp] theorem State.endStep_governor : (s.endStep).governor = s.governor := rfl
@[simp] theorem State.endStep_lines : (s.endStep).lines = s.lines := rfl
@[simp] theorem State.endStep_contests : (s.endStep).contests = s.contests := rfl
@[simp] theorem State.endStep_motion : (s.endStep).motion = s.motion := rfl
@[simp] theorem State.endStep_outputs : (s.endStep).outputs = s.outputs := rfl
@[simp] theorem State.endStep_latch : (s.endStep).latch = s.latch := rfl
@[simp] theorem State.endStep_counters : (s.endStep).counters = s.counters := rfl

@[simp] theorem State.judgeMotion_pending : (s.judgeMotion).pending = s.pending := rfl
@[simp] theorem State.judgeMotion_resetLow : (s.judgeMotion).resetLow = s.resetLow := rfl
@[simp] theorem State.judgeMotion_clock : (s.judgeMotion).clock = s.clock := rfl
@[simp] theorem State.judgeMotion_u : (s.judgeMotion).u = s.u := rfl
@[simp] theorem State.judgeMotion_da : (s.judgeMotion).da = s.da := rfl
@[simp] theorem State.judgeMotion_db : (s.judgeMotion).db = s.db := rfl
@[simp] theorem State.judgeMotion_router : (s.judgeMotion).router = s.router := rfl
@[simp] theorem State.judgeMotion_queues : (s.judgeMotion).queues = s.queues := rfl
@[simp] theorem State.judgeMotion_cadence : (s.judgeMotion).cadence = s.cadence := rfl
@[simp] theorem State.judgeMotion_engine : (s.judgeMotion).engine = s.engine := rfl
@[simp] theorem State.judgeMotion_axisTable : (s.judgeMotion).axisTable = s.axisTable := rfl
@[simp] theorem State.judgeMotion_rigTable : (s.judgeMotion).rigTable = s.rigTable := rfl
@[simp] theorem State.judgeMotion_globals : (s.judgeMotion).globals = s.globals := rfl
@[simp] theorem State.judgeMotion_lineTable : (s.judgeMotion).lineTable = s.lineTable := rfl
@[simp] theorem State.judgeMotion_axes : (s.judgeMotion).axes = s.axes := rfl
@[simp] theorem State.judgeMotion_dwell : (s.judgeMotion).dwell = s.dwell := rfl
@[simp] theorem State.judgeMotion_governor : (s.judgeMotion).governor = s.governor := rfl
@[simp] theorem State.judgeMotion_lines : (s.judgeMotion).lines = s.lines := rfl
@[simp] theorem State.judgeMotion_contests : (s.judgeMotion).contests = s.contests := rfl
@[simp] theorem State.judgeMotion_motion : (s.judgeMotion).motion = Bank.tabulate 4 s.rigMoves := rfl
@[simp] theorem State.judgeMotion_outputs : (s.judgeMotion).outputs = s.outputs := rfl
@[simp] theorem State.judgeMotion_latch : (s.judgeMotion).latch = s.latch := rfl
@[simp] theorem State.judgeMotion_counters : (s.judgeMotion).counters = s.counters := rfl

@[simp] theorem State.clearFresh_pending : (s.clearFresh).pending = s.pending := rfl
@[simp] theorem State.clearFresh_resetLow : (s.clearFresh).resetLow = s.resetLow := rfl
@[simp] theorem State.clearFresh_clock : (s.clearFresh).clock = s.clock := rfl
@[simp] theorem State.clearFresh_u : (s.clearFresh).u = s.u := rfl
@[simp] theorem State.clearFresh_da : (s.clearFresh).da = s.da := rfl
@[simp] theorem State.clearFresh_db : (s.clearFresh).db = s.db := rfl
@[simp] theorem State.clearFresh_router : (s.clearFresh).router = s.router := rfl
@[simp] theorem State.clearFresh_queues : (s.clearFresh).queues = s.queues := rfl
@[simp] theorem State.clearFresh_cadence : (s.clearFresh).cadence = s.cadence := rfl
@[simp] theorem State.clearFresh_engine : (s.clearFresh).engine = s.engine := rfl
@[simp] theorem State.clearFresh_axisTable : (s.clearFresh).axisTable = s.axisTable := rfl
@[simp] theorem State.clearFresh_rigTable : (s.clearFresh).rigTable = s.rigTable := rfl
@[simp] theorem State.clearFresh_globals : (s.clearFresh).globals = s.globals := rfl
@[simp] theorem State.clearFresh_lineTable : (s.clearFresh).lineTable = s.lineTable := rfl
@[simp] theorem State.clearFresh_axes :
    (s.clearFresh).axes = Bank.mapIdx (fun _ x => { x with fresh := false }) s.axes := rfl
@[simp] theorem State.clearFresh_dwell : (s.clearFresh).dwell = s.dwell := rfl
@[simp] theorem State.clearFresh_governor : (s.clearFresh).governor = s.governor := rfl
@[simp] theorem State.clearFresh_lines : (s.clearFresh).lines = s.lines := rfl
@[simp] theorem State.clearFresh_contests : (s.clearFresh).contests = s.contests := rfl
@[simp] theorem State.clearFresh_motion : (s.clearFresh).motion = s.motion := rfl
@[simp] theorem State.clearFresh_outputs : (s.clearFresh).outputs = s.outputs := rfl
@[simp] theorem State.clearFresh_latch : (s.clearFresh).latch = s.latch := rfl
@[simp] theorem State.clearFresh_counters : (s.clearFresh).counters = s.counters := rfl

@[simp] theorem State.dropNotice_pending : (s.dropNotice).pending = s.pending := rfl
@[simp] theorem State.dropNotice_resetLow : (s.dropNotice).resetLow = s.resetLow := rfl
@[simp] theorem State.dropNotice_clock : (s.dropNotice).clock = s.clock := rfl
@[simp] theorem State.dropNotice_u : (s.dropNotice).u = s.u := rfl
@[simp] theorem State.dropNotice_da : (s.dropNotice).da = s.da := rfl
@[simp] theorem State.dropNotice_db : (s.dropNotice).db = s.db := rfl
@[simp] theorem State.dropNotice_router : (s.dropNotice).router = s.router := rfl
@[simp] theorem State.dropNotice_queues : (s.dropNotice).queues = s.queues := rfl
@[simp] theorem State.dropNotice_cadence : (s.dropNotice).cadence = s.cadence := rfl
@[simp] theorem State.dropNotice_engine :
    (s.dropNotice).engine = { s.engine with notices := s.engine.notices.tail } := rfl
@[simp] theorem State.dropNotice_axisTable : (s.dropNotice).axisTable = s.axisTable := rfl
@[simp] theorem State.dropNotice_rigTable : (s.dropNotice).rigTable = s.rigTable := rfl
@[simp] theorem State.dropNotice_globals : (s.dropNotice).globals = s.globals := rfl
@[simp] theorem State.dropNotice_lineTable : (s.dropNotice).lineTable = s.lineTable := rfl
@[simp] theorem State.dropNotice_axes : (s.dropNotice).axes = s.axes := rfl
@[simp] theorem State.dropNotice_dwell : (s.dropNotice).dwell = s.dwell := rfl
@[simp] theorem State.dropNotice_governor : (s.dropNotice).governor = s.governor := rfl
@[simp] theorem State.dropNotice_lines : (s.dropNotice).lines = s.lines := rfl
@[simp] theorem State.dropNotice_contests : (s.dropNotice).contests = s.contests := rfl
@[simp] theorem State.dropNotice_motion : (s.dropNotice).motion = s.motion := rfl
@[simp] theorem State.dropNotice_outputs : (s.dropNotice).outputs = s.outputs := rfl
@[simp] theorem State.dropNotice_latch : (s.dropNotice).latch = s.latch := rfl
@[simp] theorem State.dropNotice_counters : (s.dropNotice).counters = s.counters := rfl

@[simp] theorem State.enterArmed_pending : (s.enterArmed).pending = s.pending := rfl
@[simp] theorem State.enterArmed_resetLow : (s.enterArmed).resetLow = s.resetLow := rfl
@[simp] theorem State.enterArmed_clock : (s.enterArmed).clock = s.clock := rfl
@[simp] theorem State.enterArmed_u : (s.enterArmed).u = s.u := rfl
@[simp] theorem State.enterArmed_da : (s.enterArmed).da = s.da := rfl
@[simp] theorem State.enterArmed_db : (s.enterArmed).db = s.db := rfl
@[simp] theorem State.enterArmed_router : (s.enterArmed).router = s.router := rfl
@[simp] theorem State.enterArmed_queues : (s.enterArmed).queues = s.queues := rfl
@[simp] theorem State.enterArmed_cadence : (s.enterArmed).cadence = s.cadence := rfl
@[simp] theorem State.enterArmed_engine : (s.enterArmed).engine = s.engine := rfl
@[simp] theorem State.enterArmed_axisTable : (s.enterArmed).axisTable = s.axisTable := rfl
@[simp] theorem State.enterArmed_rigTable : (s.enterArmed).rigTable = s.rigTable := rfl
@[simp] theorem State.enterArmed_globals : (s.enterArmed).globals = s.globals := rfl
@[simp] theorem State.enterArmed_lineTable : (s.enterArmed).lineTable = s.lineTable := rfl
@[simp] theorem State.enterArmed_axes : (s.enterArmed).axes = s.axes := rfl
@[simp] theorem State.enterArmed_dwell : (s.enterArmed).dwell = s.dwell := rfl
@[simp] theorem State.enterArmed_governor :
    (s.enterArmed).governor = { s.governor with state := .armed, causes := s.governor.activeCauses } := rfl
@[simp] theorem State.enterArmed_lines : (s.enterArmed).lines = s.lines := rfl
@[simp] theorem State.enterArmed_contests : (s.enterArmed).contests = s.contests := rfl
@[simp] theorem State.enterArmed_motion : (s.enterArmed).motion = s.motion := rfl
@[simp] theorem State.enterArmed_outputs : (s.enterArmed).outputs = s.outputs := rfl
@[simp] theorem State.enterArmed_latch : (s.enterArmed).latch = s.latch := rfl
@[simp] theorem State.enterArmed_counters : (s.enterArmed).counters = s.counters := rfl

@[simp] theorem State.beginStep_pending : (s.beginStep).pending = s.pending := rfl
@[simp] theorem State.beginStep_resetLow : (s.beginStep).resetLow = s.resetLow := rfl
@[simp] theorem State.beginStep_clock : (s.beginStep).clock = s.clock := rfl
@[simp] theorem State.beginStep_u : (s.beginStep).u = s.u := rfl
@[simp] theorem State.beginStep_da : (s.beginStep).da = s.da := rfl
@[simp] theorem State.beginStep_db : (s.beginStep).db = s.db := rfl
@[simp] theorem State.beginStep_router : (s.beginStep).router = s.router := rfl
@[simp] theorem State.beginStep_queues : (s.beginStep).queues = s.queues := rfl
@[simp] theorem State.beginStep_cadence : (s.beginStep).cadence = s.cadence := rfl
@[simp] theorem State.beginStep_engine :
    (s.beginStep).engine = { s.engine with due := false, inFlight := some (if s.cadence.state = .locked then .setpoint else .timer), lastStepStart := s.timeBase } := rfl
@[simp] theorem State.beginStep_axisTable : (s.beginStep).axisTable = s.axisTable := rfl
@[simp] theorem State.beginStep_rigTable : (s.beginStep).rigTable = s.rigTable := rfl
@[simp] theorem State.beginStep_globals : (s.beginStep).globals = s.globals := rfl
@[simp] theorem State.beginStep_lineTable : (s.beginStep).lineTable = s.lineTable := rfl
@[simp] theorem State.beginStep_axes : (s.beginStep).axes = s.axes := rfl
@[simp] theorem State.beginStep_dwell : (s.beginStep).dwell = s.dwell := rfl
@[simp] theorem State.beginStep_governor : (s.beginStep).governor = s.governor := rfl
@[simp] theorem State.beginStep_lines : (s.beginStep).lines = s.lines := rfl
@[simp] theorem State.beginStep_contests : (s.beginStep).contests = s.contests := rfl
@[simp] theorem State.beginStep_motion : (s.beginStep).motion = s.motion := rfl
@[simp] theorem State.beginStep_outputs : (s.beginStep).outputs = s.outputs := rfl
@[simp] theorem State.beginStep_latch : (s.beginStep).latch = s.latch := rfl
@[simp] theorem State.beginStep_counters : (s.beginStep).counters = s.counters := rfl

@[simp] theorem State.setPort_pending (p : PortId) (x : Port) : (s.setPort p x).pending = s.pending := by cases p <;> rfl
@[simp] theorem State.setPort_resetLow (p : PortId) (x : Port) : (s.setPort p x).resetLow = s.resetLow := by cases p <;> rfl
@[simp] theorem State.setPort_clock (p : PortId) (x : Port) : (s.setPort p x).clock = s.clock := by cases p <;> rfl
@[simp] theorem State.setPort_router (p : PortId) (x : Port) : (s.setPort p x).router = s.router := by cases p <;> rfl
@[simp] theorem State.setPort_queues (p : PortId) (x : Port) : (s.setPort p x).queues = s.queues := by cases p <;> rfl
@[simp] theorem State.setPort_cadence (p : PortId) (x : Port) : (s.setPort p x).cadence = s.cadence := by cases p <;> rfl
@[simp] theorem State.setPort_engine (p : PortId) (x : Port) : (s.setPort p x).engine = s.engine := by cases p <;> rfl
@[simp] theorem State.setPort_axisTable (p : PortId) (x : Port) : (s.setPort p x).axisTable = s.axisTable := by cases p <;> rfl
@[simp] theorem State.setPort_rigTable (p : PortId) (x : Port) : (s.setPort p x).rigTable = s.rigTable := by cases p <;> rfl
@[simp] theorem State.setPort_globals (p : PortId) (x : Port) : (s.setPort p x).globals = s.globals := by cases p <;> rfl
@[simp] theorem State.setPort_lineTable (p : PortId) (x : Port) : (s.setPort p x).lineTable = s.lineTable := by cases p <;> rfl
@[simp] theorem State.setPort_axes (p : PortId) (x : Port) : (s.setPort p x).axes = s.axes := by cases p <;> rfl
@[simp] theorem State.setPort_dwell (p : PortId) (x : Port) : (s.setPort p x).dwell = s.dwell := by cases p <;> rfl
@[simp] theorem State.setPort_governor (p : PortId) (x : Port) : (s.setPort p x).governor = s.governor := by cases p <;> rfl
@[simp] theorem State.setPort_lines (p : PortId) (x : Port) : (s.setPort p x).lines = s.lines := by cases p <;> rfl
@[simp] theorem State.setPort_contests (p : PortId) (x : Port) : (s.setPort p x).contests = s.contests := by cases p <;> rfl
@[simp] theorem State.setPort_motion (p : PortId) (x : Port) : (s.setPort p x).motion = s.motion := by cases p <;> rfl
@[simp] theorem State.setPort_outputs (p : PortId) (x : Port) : (s.setPort p x).outputs = s.outputs := by cases p <;> rfl
@[simp] theorem State.setPort_latch (p : PortId) (x : Port) : (s.setPort p x).latch = s.latch := by cases p <;> rfl
@[simp] theorem State.setPort_counters (p : PortId) (x : Port) : (s.setPort p x).counters = s.counters := by cases p <;> rfl

@[simp] theorem State.setRx_pending (p : PortId) (x : Receiver) : (s.setRx p x).pending = s.pending := by cases p <;> rfl
@[simp] theorem State.setRx_resetLow (p : PortId) (x : Receiver) : (s.setRx p x).resetLow = s.resetLow := by cases p <;> rfl
@[simp] theorem State.setRx_clock (p : PortId) (x : Receiver) : (s.setRx p x).clock = s.clock := by cases p <;> rfl
@[simp] theorem State.setRx_router (p : PortId) (x : Receiver) : (s.setRx p x).router = s.router := by cases p <;> rfl
@[simp] theorem State.setRx_queues (p : PortId) (x : Receiver) : (s.setRx p x).queues = s.queues := by cases p <;> rfl
@[simp] theorem State.setRx_cadence (p : PortId) (x : Receiver) : (s.setRx p x).cadence = s.cadence := by cases p <;> rfl
@[simp] theorem State.setRx_engine (p : PortId) (x : Receiver) : (s.setRx p x).engine = s.engine := by cases p <;> rfl
@[simp] theorem State.setRx_axisTable (p : PortId) (x : Receiver) : (s.setRx p x).axisTable = s.axisTable := by cases p <;> rfl
@[simp] theorem State.setRx_rigTable (p : PortId) (x : Receiver) : (s.setRx p x).rigTable = s.rigTable := by cases p <;> rfl
@[simp] theorem State.setRx_globals (p : PortId) (x : Receiver) : (s.setRx p x).globals = s.globals := by cases p <;> rfl
@[simp] theorem State.setRx_lineTable (p : PortId) (x : Receiver) : (s.setRx p x).lineTable = s.lineTable := by cases p <;> rfl
@[simp] theorem State.setRx_axes (p : PortId) (x : Receiver) : (s.setRx p x).axes = s.axes := by cases p <;> rfl
@[simp] theorem State.setRx_dwell (p : PortId) (x : Receiver) : (s.setRx p x).dwell = s.dwell := by cases p <;> rfl
@[simp] theorem State.setRx_governor (p : PortId) (x : Receiver) : (s.setRx p x).governor = s.governor := by cases p <;> rfl
@[simp] theorem State.setRx_lines (p : PortId) (x : Receiver) : (s.setRx p x).lines = s.lines := by cases p <;> rfl
@[simp] theorem State.setRx_contests (p : PortId) (x : Receiver) : (s.setRx p x).contests = s.contests := by cases p <;> rfl
@[simp] theorem State.setRx_motion (p : PortId) (x : Receiver) : (s.setRx p x).motion = s.motion := by cases p <;> rfl
@[simp] theorem State.setRx_outputs (p : PortId) (x : Receiver) : (s.setRx p x).outputs = s.outputs := by cases p <;> rfl
@[simp] theorem State.setRx_latch (p : PortId) (x : Receiver) : (s.setRx p x).latch = s.latch := by cases p <;> rfl
@[simp] theorem State.setRx_counters (p : PortId) (x : Receiver) : (s.setRx p x).counters = s.counters := by cases p <;> rfl

@[simp] theorem State.setFifo_pending (p : PortId) (x : List Received) : (s.setFifo p x).pending = s.pending := by cases p <;> rfl
@[simp] theorem State.setFifo_resetLow (p : PortId) (x : List Received) : (s.setFifo p x).resetLow = s.resetLow := by cases p <;> rfl
@[simp] theorem State.setFifo_clock (p : PortId) (x : List Received) : (s.setFifo p x).clock = s.clock := by cases p <;> rfl
@[simp] theorem State.setFifo_router (p : PortId) (x : List Received) : (s.setFifo p x).router = s.router := by cases p <;> rfl
@[simp] theorem State.setFifo_queues (p : PortId) (x : List Received) : (s.setFifo p x).queues = s.queues := by cases p <;> rfl
@[simp] theorem State.setFifo_cadence (p : PortId) (x : List Received) : (s.setFifo p x).cadence = s.cadence := by cases p <;> rfl
@[simp] theorem State.setFifo_engine (p : PortId) (x : List Received) : (s.setFifo p x).engine = s.engine := by cases p <;> rfl
@[simp] theorem State.setFifo_axisTable (p : PortId) (x : List Received) : (s.setFifo p x).axisTable = s.axisTable := by cases p <;> rfl
@[simp] theorem State.setFifo_rigTable (p : PortId) (x : List Received) : (s.setFifo p x).rigTable = s.rigTable := by cases p <;> rfl
@[simp] theorem State.setFifo_globals (p : PortId) (x : List Received) : (s.setFifo p x).globals = s.globals := by cases p <;> rfl
@[simp] theorem State.setFifo_lineTable (p : PortId) (x : List Received) : (s.setFifo p x).lineTable = s.lineTable := by cases p <;> rfl
@[simp] theorem State.setFifo_axes (p : PortId) (x : List Received) : (s.setFifo p x).axes = s.axes := by cases p <;> rfl
@[simp] theorem State.setFifo_dwell (p : PortId) (x : List Received) : (s.setFifo p x).dwell = s.dwell := by cases p <;> rfl
@[simp] theorem State.setFifo_governor (p : PortId) (x : List Received) : (s.setFifo p x).governor = s.governor := by cases p <;> rfl
@[simp] theorem State.setFifo_lines (p : PortId) (x : List Received) : (s.setFifo p x).lines = s.lines := by cases p <;> rfl
@[simp] theorem State.setFifo_contests (p : PortId) (x : List Received) : (s.setFifo p x).contests = s.contests := by cases p <;> rfl
@[simp] theorem State.setFifo_motion (p : PortId) (x : List Received) : (s.setFifo p x).motion = s.motion := by cases p <;> rfl
@[simp] theorem State.setFifo_outputs (p : PortId) (x : List Received) : (s.setFifo p x).outputs = s.outputs := by cases p <;> rfl
@[simp] theorem State.setFifo_latch (p : PortId) (x : List Received) : (s.setFifo p x).latch = s.latch := by cases p <;> rfl
@[simp] theorem State.setFifo_counters (p : PortId) (x : List Received) : (s.setFifo p x).counters = s.counters := by cases p <;> rfl

@[simp] theorem State.setTx_pending (p : PortId) (x : Option Sending) : (s.setTx p x).pending = s.pending := by cases p <;> rfl
@[simp] theorem State.setTx_resetLow (p : PortId) (x : Option Sending) : (s.setTx p x).resetLow = s.resetLow := by cases p <;> rfl
@[simp] theorem State.setTx_clock (p : PortId) (x : Option Sending) : (s.setTx p x).clock = s.clock := by cases p <;> rfl
@[simp] theorem State.setTx_router (p : PortId) (x : Option Sending) : (s.setTx p x).router = s.router := by cases p <;> rfl
@[simp] theorem State.setTx_queues (p : PortId) (x : Option Sending) : (s.setTx p x).queues = s.queues := by cases p <;> rfl
@[simp] theorem State.setTx_cadence (p : PortId) (x : Option Sending) : (s.setTx p x).cadence = s.cadence := by cases p <;> rfl
@[simp] theorem State.setTx_engine (p : PortId) (x : Option Sending) : (s.setTx p x).engine = s.engine := by cases p <;> rfl
@[simp] theorem State.setTx_axisTable (p : PortId) (x : Option Sending) : (s.setTx p x).axisTable = s.axisTable := by cases p <;> rfl
@[simp] theorem State.setTx_rigTable (p : PortId) (x : Option Sending) : (s.setTx p x).rigTable = s.rigTable := by cases p <;> rfl
@[simp] theorem State.setTx_globals (p : PortId) (x : Option Sending) : (s.setTx p x).globals = s.globals := by cases p <;> rfl
@[simp] theorem State.setTx_lineTable (p : PortId) (x : Option Sending) : (s.setTx p x).lineTable = s.lineTable := by cases p <;> rfl
@[simp] theorem State.setTx_axes (p : PortId) (x : Option Sending) : (s.setTx p x).axes = s.axes := by cases p <;> rfl
@[simp] theorem State.setTx_dwell (p : PortId) (x : Option Sending) : (s.setTx p x).dwell = s.dwell := by cases p <;> rfl
@[simp] theorem State.setTx_governor (p : PortId) (x : Option Sending) : (s.setTx p x).governor = s.governor := by cases p <;> rfl
@[simp] theorem State.setTx_lines (p : PortId) (x : Option Sending) : (s.setTx p x).lines = s.lines := by cases p <;> rfl
@[simp] theorem State.setTx_contests (p : PortId) (x : Option Sending) : (s.setTx p x).contests = s.contests := by cases p <;> rfl
@[simp] theorem State.setTx_motion (p : PortId) (x : Option Sending) : (s.setTx p x).motion = s.motion := by cases p <;> rfl
@[simp] theorem State.setTx_outputs (p : PortId) (x : Option Sending) : (s.setTx p x).outputs = s.outputs := by cases p <;> rfl
@[simp] theorem State.setTx_latch (p : PortId) (x : Option Sending) : (s.setTx p x).latch = s.latch := by cases p <;> rfl
@[simp] theorem State.setTx_counters (p : PortId) (x : Option Sending) : (s.setTx p x).counters = s.counters := by cases p <;> rfl

@[simp] theorem State.bumpPort_pending (p : PortId) (c : PortCounter) : (s.bumpPort p c).pending = s.pending := by cases p <;> rfl
@[simp] theorem State.bumpPort_resetLow (p : PortId) (c : PortCounter) : (s.bumpPort p c).resetLow = s.resetLow := by cases p <;> rfl
@[simp] theorem State.bumpPort_clock (p : PortId) (c : PortCounter) : (s.bumpPort p c).clock = s.clock := by cases p <;> rfl
@[simp] theorem State.bumpPort_router (p : PortId) (c : PortCounter) : (s.bumpPort p c).router = s.router := by cases p <;> rfl
@[simp] theorem State.bumpPort_queues (p : PortId) (c : PortCounter) : (s.bumpPort p c).queues = s.queues := by cases p <;> rfl
@[simp] theorem State.bumpPort_cadence (p : PortId) (c : PortCounter) : (s.bumpPort p c).cadence = s.cadence := by cases p <;> rfl
@[simp] theorem State.bumpPort_engine (p : PortId) (c : PortCounter) : (s.bumpPort p c).engine = s.engine := by cases p <;> rfl
@[simp] theorem State.bumpPort_axisTable (p : PortId) (c : PortCounter) : (s.bumpPort p c).axisTable = s.axisTable := by cases p <;> rfl
@[simp] theorem State.bumpPort_rigTable (p : PortId) (c : PortCounter) : (s.bumpPort p c).rigTable = s.rigTable := by cases p <;> rfl
@[simp] theorem State.bumpPort_globals (p : PortId) (c : PortCounter) : (s.bumpPort p c).globals = s.globals := by cases p <;> rfl
@[simp] theorem State.bumpPort_lineTable (p : PortId) (c : PortCounter) : (s.bumpPort p c).lineTable = s.lineTable := by cases p <;> rfl
@[simp] theorem State.bumpPort_axes (p : PortId) (c : PortCounter) : (s.bumpPort p c).axes = s.axes := by cases p <;> rfl
@[simp] theorem State.bumpPort_dwell (p : PortId) (c : PortCounter) : (s.bumpPort p c).dwell = s.dwell := by cases p <;> rfl
@[simp] theorem State.bumpPort_governor (p : PortId) (c : PortCounter) : (s.bumpPort p c).governor = s.governor := by cases p <;> rfl
@[simp] theorem State.bumpPort_lines (p : PortId) (c : PortCounter) : (s.bumpPort p c).lines = s.lines := by cases p <;> rfl
@[simp] theorem State.bumpPort_contests (p : PortId) (c : PortCounter) : (s.bumpPort p c).contests = s.contests := by cases p <;> rfl
@[simp] theorem State.bumpPort_motion (p : PortId) (c : PortCounter) : (s.bumpPort p c).motion = s.motion := by cases p <;> rfl
@[simp] theorem State.bumpPort_outputs (p : PortId) (c : PortCounter) : (s.bumpPort p c).outputs = s.outputs := by cases p <;> rfl
@[simp] theorem State.bumpPort_latch (p : PortId) (c : PortCounter) : (s.bumpPort p c).latch = s.latch := by cases p <;> rfl
@[simp] theorem State.bumpPort_counters (p : PortId) (c : PortCounter) : (s.bumpPort p c).counters = s.counters := by cases p <;> rfl

@[simp] theorem State.setBranch_pending (p : BranchId) (x : BranchQueues) : (s.setBranch p x).pending = s.pending := by cases p <;> rfl
@[simp] theorem State.setBranch_resetLow (p : BranchId) (x : BranchQueues) : (s.setBranch p x).resetLow = s.resetLow := by cases p <;> rfl
@[simp] theorem State.setBranch_clock (p : BranchId) (x : BranchQueues) : (s.setBranch p x).clock = s.clock := by cases p <;> rfl
@[simp] theorem State.setBranch_u (p : BranchId) (x : BranchQueues) : (s.setBranch p x).u = s.u := by cases p <;> rfl
@[simp] theorem State.setBranch_da (p : BranchId) (x : BranchQueues) : (s.setBranch p x).da = s.da := by cases p <;> rfl
@[simp] theorem State.setBranch_db (p : BranchId) (x : BranchQueues) : (s.setBranch p x).db = s.db := by cases p <;> rfl
@[simp] theorem State.setBranch_router (p : BranchId) (x : BranchQueues) : (s.setBranch p x).router = s.router := by cases p <;> rfl
@[simp] theorem State.setBranch_cadence (p : BranchId) (x : BranchQueues) : (s.setBranch p x).cadence = s.cadence := by cases p <;> rfl
@[simp] theorem State.setBranch_engine (p : BranchId) (x : BranchQueues) : (s.setBranch p x).engine = s.engine := by cases p <;> rfl
@[simp] theorem State.setBranch_axisTable (p : BranchId) (x : BranchQueues) : (s.setBranch p x).axisTable = s.axisTable := by cases p <;> rfl
@[simp] theorem State.setBranch_rigTable (p : BranchId) (x : BranchQueues) : (s.setBranch p x).rigTable = s.rigTable := by cases p <;> rfl
@[simp] theorem State.setBranch_globals (p : BranchId) (x : BranchQueues) : (s.setBranch p x).globals = s.globals := by cases p <;> rfl
@[simp] theorem State.setBranch_lineTable (p : BranchId) (x : BranchQueues) : (s.setBranch p x).lineTable = s.lineTable := by cases p <;> rfl
@[simp] theorem State.setBranch_axes (p : BranchId) (x : BranchQueues) : (s.setBranch p x).axes = s.axes := by cases p <;> rfl
@[simp] theorem State.setBranch_dwell (p : BranchId) (x : BranchQueues) : (s.setBranch p x).dwell = s.dwell := by cases p <;> rfl
@[simp] theorem State.setBranch_governor (p : BranchId) (x : BranchQueues) : (s.setBranch p x).governor = s.governor := by cases p <;> rfl
@[simp] theorem State.setBranch_lines (p : BranchId) (x : BranchQueues) : (s.setBranch p x).lines = s.lines := by cases p <;> rfl
@[simp] theorem State.setBranch_contests (p : BranchId) (x : BranchQueues) : (s.setBranch p x).contests = s.contests := by cases p <;> rfl
@[simp] theorem State.setBranch_motion (p : BranchId) (x : BranchQueues) : (s.setBranch p x).motion = s.motion := by cases p <;> rfl
@[simp] theorem State.setBranch_outputs (p : BranchId) (x : BranchQueues) : (s.setBranch p x).outputs = s.outputs := by cases p <;> rfl
@[simp] theorem State.setBranch_latch (p : BranchId) (x : BranchQueues) : (s.setBranch p x).latch = s.latch := by cases p <;> rfl
@[simp] theorem State.setBranch_counters (p : BranchId) (x : BranchQueues) : (s.setBranch p x).counters = s.counters := by cases p <;> rfl

@[simp] theorem State.elapse_ctx (w : Nat) (m : AxisId) : (s.elapse w).ctx m = s.ctx m := rfl
@[simp] theorem State.setLine_ctx (l : LineId) (x : Line) (m : AxisId) : (s.setLine l x).ctx m = s.ctx m := rfl
@[simp] theorem State.setNotices_ctx (l : List Notice) (m : AxisId) : (s.setNotices l).ctx m = s.ctx m := rfl
@[simp] theorem State.bump_ctx (c : GlobalCounter) (m : AxisId) : (s.bump c).ctx m = s.ctx m := rfl
@[simp] theorem State.latchEvent_ctx (e : EventFlag) (m : AxisId) : (s.latchEvent e).ctx m = s.ctx m := rfl
@[simp] theorem State.setContest_ctx (n : AxisId) (x : Option Contest) (m : AxisId) : (s.setContest n x).ctx m = s.ctx m := rfl
@[simp] theorem State.setDwell_ctx (r : RigId) (x : Option Nat) (m : AxisId) : (s.setDwell r x).ctx m = s.ctx m := rfl
@[simp] theorem State.setCadence_ctx (c : Cadence) (m : AxisId) : (s.setCadence c).ctx m = s.ctx m := rfl
@[simp] theorem State.makeDue_ctx (m : AxisId) : (s.makeDue).ctx m = s.ctx m := rfl
@[simp] theorem State.drive_ctx (m : AxisId) : (s.drive).ctx m = s.ctx m := rfl
@[simp] theorem State.placeStatus_ctx (f : Frame) (m : AxisId) : (s.placeStatus f).ctx m = s.ctx m := rfl
@[simp] theorem State.nextGseq_ctx (m : AxisId) : (s.nextGseq).ctx m = s.ctx m := rfl
@[simp] theorem State.endStep_ctx (m : AxisId) : (s.endStep).ctx m = s.ctx m := rfl
@[simp] theorem State.judgeMotion_ctx (m : AxisId) : (s.judgeMotion).ctx m = s.ctx m := rfl
@[simp] theorem State.dropNotice_ctx (m : AxisId) : (s.dropNotice).ctx m = s.ctx m := rfl
@[simp] theorem State.enterArmed_ctx (m : AxisId) : (s.enterArmed).ctx m = s.ctx m := rfl
@[simp] theorem State.beginStep_ctx (m : AxisId) : (s.beginStep).ctx m = s.ctx m := rfl
@[simp] theorem State.setPort_ctx (z : PortId) (x : Port) (m : AxisId) : (s.setPort z x).ctx m = s.ctx m := by cases z <;> rfl
@[simp] theorem State.setRx_ctx (z : PortId) (x : Receiver) (m : AxisId) : (s.setRx z x).ctx m = s.ctx m := by cases z <;> rfl
@[simp] theorem State.setFifo_ctx (z : PortId) (x : List Received) (m : AxisId) : (s.setFifo z x).ctx m = s.ctx m := by cases z <;> rfl
@[simp] theorem State.setTx_ctx (z : PortId) (x : Option Sending) (m : AxisId) : (s.setTx z x).ctx m = s.ctx m := by cases z <;> rfl
@[simp] theorem State.bumpPort_ctx (z : PortId) (c : PortCounter) (m : AxisId) : (s.bumpPort z c).ctx m = s.ctx m := by cases z <;> rfl
@[simp] theorem State.setBranch_ctx (z : BranchId) (x : BranchQueues) (m : AxisId) : (s.setBranch z x).ctx m = s.ctx m := by cases z <;> rfl

@[simp] theorem State.elapse_entry (w : Nat) (m : AxisId) : (s.elapse w).entry m = s.entry m := rfl
@[simp] theorem State.setLine_entry (l : LineId) (x : Line) (m : AxisId) : (s.setLine l x).entry m = s.entry m := rfl
@[simp] theorem State.setNotices_entry (l : List Notice) (m : AxisId) : (s.setNotices l).entry m = s.entry m := rfl
@[simp] theorem State.bump_entry (c : GlobalCounter) (m : AxisId) : (s.bump c).entry m = s.entry m := rfl
@[simp] theorem State.latchEvent_entry (e : EventFlag) (m : AxisId) : (s.latchEvent e).entry m = s.entry m := rfl
@[simp] theorem State.setCtx_entry (n : AxisId) (x : Ctx) (m : AxisId) : (s.setCtx n x).entry m = s.entry m := rfl
@[simp] theorem State.setContest_entry (n : AxisId) (x : Option Contest) (m : AxisId) : (s.setContest n x).entry m = s.entry m := rfl
@[simp] theorem State.setDwell_entry (r : RigId) (x : Option Nat) (m : AxisId) : (s.setDwell r x).entry m = s.entry m := rfl
@[simp] theorem State.setCadence_entry (c : Cadence) (m : AxisId) : (s.setCadence c).entry m = s.entry m := rfl
@[simp] theorem State.makeDue_entry (m : AxisId) : (s.makeDue).entry m = s.entry m := rfl
@[simp] theorem State.drive_entry (m : AxisId) : (s.drive).entry m = s.entry m := rfl
@[simp] theorem State.placeStatus_entry (f : Frame) (m : AxisId) : (s.placeStatus f).entry m = s.entry m := rfl
@[simp] theorem State.nextGseq_entry (m : AxisId) : (s.nextGseq).entry m = s.entry m := rfl
@[simp] theorem State.endStep_entry (m : AxisId) : (s.endStep).entry m = s.entry m := rfl
@[simp] theorem State.judgeMotion_entry (m : AxisId) : (s.judgeMotion).entry m = s.entry m := rfl
@[simp] theorem State.clearFresh_entry (m : AxisId) : (s.clearFresh).entry m = s.entry m := rfl
@[simp] theorem State.dropNotice_entry (m : AxisId) : (s.dropNotice).entry m = s.entry m := rfl
@[simp] theorem State.enterArmed_entry (m : AxisId) : (s.enterArmed).entry m = s.entry m := rfl
@[simp] theorem State.beginStep_entry (m : AxisId) : (s.beginStep).entry m = s.entry m := rfl
@[simp] theorem State.setPort_entry (z : PortId) (x : Port) (m : AxisId) : (s.setPort z x).entry m = s.entry m := by cases z <;> rfl
@[simp] theorem State.setRx_entry (z : PortId) (x : Receiver) (m : AxisId) : (s.setRx z x).entry m = s.entry m := by cases z <;> rfl
@[simp] theorem State.setFifo_entry (z : PortId) (x : List Received) (m : AxisId) : (s.setFifo z x).entry m = s.entry m := by cases z <;> rfl
@[simp] theorem State.setTx_entry (z : PortId) (x : Option Sending) (m : AxisId) : (s.setTx z x).entry m = s.entry m := by cases z <;> rfl
@[simp] theorem State.bumpPort_entry (z : PortId) (c : PortCounter) (m : AxisId) : (s.bumpPort z c).entry m = s.entry m := by cases z <;> rfl
@[simp] theorem State.setBranch_entry (z : BranchId) (x : BranchQueues) (m : AxisId) : (s.setBranch z x).entry m = s.entry m := by cases z <;> rfl

@[simp] theorem State.elapse_rig (w : Nat) (r : RigId) : (s.elapse w).rig r = s.rig r := rfl
@[simp] theorem State.setLine_rig (l : LineId) (x : Line) (r : RigId) : (s.setLine l x).rig r = s.rig r := rfl
@[simp] theorem State.setNotices_rig (l : List Notice) (r : RigId) : (s.setNotices l).rig r = s.rig r := rfl
@[simp] theorem State.bump_rig (c : GlobalCounter) (r : RigId) : (s.bump c).rig r = s.rig r := rfl
@[simp] theorem State.latchEvent_rig (e : EventFlag) (r : RigId) : (s.latchEvent e).rig r = s.rig r := rfl
@[simp] theorem State.setCtx_rig (n : AxisId) (x : Ctx) (r : RigId) : (s.setCtx n x).rig r = s.rig r := rfl
@[simp] theorem State.setContest_rig (n : AxisId) (x : Option Contest) (r : RigId) : (s.setContest n x).rig r = s.rig r := rfl
@[simp] theorem State.setDwell_rig (z : RigId) (x : Option Nat) (r : RigId) : (s.setDwell z x).rig r = s.rig r := rfl
@[simp] theorem State.setCadence_rig (c : Cadence) (r : RigId) : (s.setCadence c).rig r = s.rig r := rfl
@[simp] theorem State.makeDue_rig (r : RigId) : (s.makeDue).rig r = s.rig r := rfl
@[simp] theorem State.drive_rig (r : RigId) : (s.drive).rig r = s.rig r := rfl
@[simp] theorem State.placeStatus_rig (f : Frame) (r : RigId) : (s.placeStatus f).rig r = s.rig r := rfl
@[simp] theorem State.nextGseq_rig (r : RigId) : (s.nextGseq).rig r = s.rig r := rfl
@[simp] theorem State.endStep_rig (r : RigId) : (s.endStep).rig r = s.rig r := rfl
@[simp] theorem State.judgeMotion_rig (r : RigId) : (s.judgeMotion).rig r = s.rig r := rfl
@[simp] theorem State.clearFresh_rig (r : RigId) : (s.clearFresh).rig r = s.rig r := rfl
@[simp] theorem State.dropNotice_rig (r : RigId) : (s.dropNotice).rig r = s.rig r := rfl
@[simp] theorem State.enterArmed_rig (r : RigId) : (s.enterArmed).rig r = s.rig r := rfl
@[simp] theorem State.beginStep_rig (r : RigId) : (s.beginStep).rig r = s.rig r := rfl
@[simp] theorem State.setPort_rig (z : PortId) (x : Port) (r : RigId) : (s.setPort z x).rig r = s.rig r := by cases z <;> rfl
@[simp] theorem State.setRx_rig (z : PortId) (x : Receiver) (r : RigId) : (s.setRx z x).rig r = s.rig r := by cases z <;> rfl
@[simp] theorem State.setFifo_rig (z : PortId) (x : List Received) (r : RigId) : (s.setFifo z x).rig r = s.rig r := by cases z <;> rfl
@[simp] theorem State.setTx_rig (z : PortId) (x : Option Sending) (r : RigId) : (s.setTx z x).rig r = s.rig r := by cases z <;> rfl
@[simp] theorem State.bumpPort_rig (z : PortId) (c : PortCounter) (r : RigId) : (s.bumpPort z c).rig r = s.rig r := by cases z <;> rfl
@[simp] theorem State.setBranch_rig (z : BranchId) (x : BranchQueues) (r : RigId) : (s.setBranch z x).rig r = s.rig r := by cases z <;> rfl

@[simp] theorem State.elapse_contest (w : Nat) (m : AxisId) : (s.elapse w).contest m = s.contest m := rfl
@[simp] theorem State.setLine_contest (l : LineId) (x : Line) (m : AxisId) : (s.setLine l x).contest m = s.contest m := rfl
@[simp] theorem State.setNotices_contest (l : List Notice) (m : AxisId) : (s.setNotices l).contest m = s.contest m := rfl
@[simp] theorem State.bump_contest (c : GlobalCounter) (m : AxisId) : (s.bump c).contest m = s.contest m := rfl
@[simp] theorem State.latchEvent_contest (e : EventFlag) (m : AxisId) : (s.latchEvent e).contest m = s.contest m := rfl
@[simp] theorem State.setCtx_contest (n : AxisId) (x : Ctx) (m : AxisId) : (s.setCtx n x).contest m = s.contest m := rfl
@[simp] theorem State.setDwell_contest (r : RigId) (x : Option Nat) (m : AxisId) : (s.setDwell r x).contest m = s.contest m := rfl
@[simp] theorem State.setCadence_contest (c : Cadence) (m : AxisId) : (s.setCadence c).contest m = s.contest m := rfl
@[simp] theorem State.makeDue_contest (m : AxisId) : (s.makeDue).contest m = s.contest m := rfl
@[simp] theorem State.drive_contest (m : AxisId) : (s.drive).contest m = s.contest m := rfl
@[simp] theorem State.placeStatus_contest (f : Frame) (m : AxisId) : (s.placeStatus f).contest m = s.contest m := rfl
@[simp] theorem State.nextGseq_contest (m : AxisId) : (s.nextGseq).contest m = s.contest m := rfl
@[simp] theorem State.endStep_contest (m : AxisId) : (s.endStep).contest m = s.contest m := rfl
@[simp] theorem State.judgeMotion_contest (m : AxisId) : (s.judgeMotion).contest m = s.contest m := rfl
@[simp] theorem State.clearFresh_contest (m : AxisId) : (s.clearFresh).contest m = s.contest m := rfl
@[simp] theorem State.dropNotice_contest (m : AxisId) : (s.dropNotice).contest m = s.contest m := rfl
@[simp] theorem State.enterArmed_contest (m : AxisId) : (s.enterArmed).contest m = s.contest m := rfl
@[simp] theorem State.beginStep_contest (m : AxisId) : (s.beginStep).contest m = s.contest m := rfl
@[simp] theorem State.setPort_contest (z : PortId) (x : Port) (m : AxisId) : (s.setPort z x).contest m = s.contest m := by cases z <;> rfl
@[simp] theorem State.setRx_contest (z : PortId) (x : Receiver) (m : AxisId) : (s.setRx z x).contest m = s.contest m := by cases z <;> rfl
@[simp] theorem State.setFifo_contest (z : PortId) (x : List Received) (m : AxisId) : (s.setFifo z x).contest m = s.contest m := by cases z <;> rfl
@[simp] theorem State.setTx_contest (z : PortId) (x : Option Sending) (m : AxisId) : (s.setTx z x).contest m = s.contest m := by cases z <;> rfl
@[simp] theorem State.bumpPort_contest (z : PortId) (c : PortCounter) (m : AxisId) : (s.bumpPort z c).contest m = s.contest m := by cases z <;> rfl
@[simp] theorem State.setBranch_contest (z : BranchId) (x : BranchQueues) (m : AxisId) : (s.setBranch z x).contest m = s.contest m := by cases z <;> rfl

@[simp] theorem State.elapse_line (w : Nat) (k : LineId) : (s.elapse w).line k = s.line k := rfl
@[simp] theorem State.setNotices_line (l : List Notice) (k : LineId) : (s.setNotices l).line k = s.line k := rfl
@[simp] theorem State.bump_line (c : GlobalCounter) (k : LineId) : (s.bump c).line k = s.line k := rfl
@[simp] theorem State.latchEvent_line (e : EventFlag) (k : LineId) : (s.latchEvent e).line k = s.line k := rfl
@[simp] theorem State.setCtx_line (n : AxisId) (x : Ctx) (k : LineId) : (s.setCtx n x).line k = s.line k := rfl
@[simp] theorem State.setContest_line (n : AxisId) (x : Option Contest) (k : LineId) : (s.setContest n x).line k = s.line k := rfl
@[simp] theorem State.setDwell_line (r : RigId) (x : Option Nat) (k : LineId) : (s.setDwell r x).line k = s.line k := rfl
@[simp] theorem State.setCadence_line (c : Cadence) (k : LineId) : (s.setCadence c).line k = s.line k := rfl
@[simp] theorem State.makeDue_line (k : LineId) : (s.makeDue).line k = s.line k := rfl
@[simp] theorem State.drive_line (k : LineId) : (s.drive).line k = s.line k := rfl
@[simp] theorem State.placeStatus_line (f : Frame) (k : LineId) : (s.placeStatus f).line k = s.line k := rfl
@[simp] theorem State.nextGseq_line (k : LineId) : (s.nextGseq).line k = s.line k := rfl
@[simp] theorem State.endStep_line (k : LineId) : (s.endStep).line k = s.line k := rfl
@[simp] theorem State.judgeMotion_line (k : LineId) : (s.judgeMotion).line k = s.line k := rfl
@[simp] theorem State.clearFresh_line (k : LineId) : (s.clearFresh).line k = s.line k := rfl
@[simp] theorem State.dropNotice_line (k : LineId) : (s.dropNotice).line k = s.line k := rfl
@[simp] theorem State.enterArmed_line (k : LineId) : (s.enterArmed).line k = s.line k := rfl
@[simp] theorem State.beginStep_line (k : LineId) : (s.beginStep).line k = s.line k := rfl
@[simp] theorem State.setPort_line (z : PortId) (x : Port) (k : LineId) : (s.setPort z x).line k = s.line k := by cases z <;> rfl
@[simp] theorem State.setRx_line (z : PortId) (x : Receiver) (k : LineId) : (s.setRx z x).line k = s.line k := by cases z <;> rfl
@[simp] theorem State.setFifo_line (z : PortId) (x : List Received) (k : LineId) : (s.setFifo z x).line k = s.line k := by cases z <;> rfl
@[simp] theorem State.setTx_line (z : PortId) (x : Option Sending) (k : LineId) : (s.setTx z x).line k = s.line k := by cases z <;> rfl
@[simp] theorem State.bumpPort_line (z : PortId) (c : PortCounter) (k : LineId) : (s.bumpPort z c).line k = s.line k := by cases z <;> rfl
@[simp] theorem State.setBranch_line (z : BranchId) (x : BranchQueues) (k : LineId) : (s.setBranch z x).line k = s.line k := by cases z <;> rfl

@[simp] theorem State.elapse_port (w : Nat) (q : PortId) : (s.elapse w).port q = s.port q := by cases q <;> rfl
@[simp] theorem State.setLine_port (l : LineId) (x : Line) (q : PortId) : (s.setLine l x).port q = s.port q := by cases q <;> rfl
@[simp] theorem State.setNotices_port (l : List Notice) (q : PortId) : (s.setNotices l).port q = s.port q := by cases q <;> rfl
@[simp] theorem State.bump_port (c : GlobalCounter) (q : PortId) : (s.bump c).port q = s.port q := by cases q <;> rfl
@[simp] theorem State.latchEvent_port (e : EventFlag) (q : PortId) : (s.latchEvent e).port q = s.port q := by cases q <;> rfl
@[simp] theorem State.setCtx_port (n : AxisId) (x : Ctx) (q : PortId) : (s.setCtx n x).port q = s.port q := by cases q <;> rfl
@[simp] theorem State.setContest_port (n : AxisId) (x : Option Contest) (q : PortId) : (s.setContest n x).port q = s.port q := by cases q <;> rfl
@[simp] theorem State.setDwell_port (r : RigId) (x : Option Nat) (q : PortId) : (s.setDwell r x).port q = s.port q := by cases q <;> rfl
@[simp] theorem State.setCadence_port (c : Cadence) (q : PortId) : (s.setCadence c).port q = s.port q := by cases q <;> rfl
@[simp] theorem State.makeDue_port (q : PortId) : (s.makeDue).port q = s.port q := by cases q <;> rfl
@[simp] theorem State.drive_port (q : PortId) : (s.drive).port q = s.port q := by cases q <;> rfl
@[simp] theorem State.placeStatus_port (f : Frame) (q : PortId) : (s.placeStatus f).port q = s.port q := by cases q <;> rfl
@[simp] theorem State.nextGseq_port (q : PortId) : (s.nextGseq).port q = s.port q := by cases q <;> rfl
@[simp] theorem State.endStep_port (q : PortId) : (s.endStep).port q = s.port q := by cases q <;> rfl
@[simp] theorem State.judgeMotion_port (q : PortId) : (s.judgeMotion).port q = s.port q := by cases q <;> rfl
@[simp] theorem State.clearFresh_port (q : PortId) : (s.clearFresh).port q = s.port q := by cases q <;> rfl
@[simp] theorem State.dropNotice_port (q : PortId) : (s.dropNotice).port q = s.port q := by cases q <;> rfl
@[simp] theorem State.enterArmed_port (q : PortId) : (s.enterArmed).port q = s.port q := by cases q <;> rfl
@[simp] theorem State.beginStep_port (q : PortId) : (s.beginStep).port q = s.port q := by cases q <;> rfl
@[simp] theorem State.setBranch_port (z : BranchId) (x : BranchQueues) (q : PortId) : (s.setBranch z x).port q = s.port q := by cases z <;> cases q <;> rfl

@[simp] theorem State.elapse_branch (w : Nat) (q : BranchId) : (s.elapse w).branch q = s.branch q := by cases q <;> rfl
@[simp] theorem State.setLine_branch (l : LineId) (x : Line) (q : BranchId) : (s.setLine l x).branch q = s.branch q := by cases q <;> rfl
@[simp] theorem State.setNotices_branch (l : List Notice) (q : BranchId) : (s.setNotices l).branch q = s.branch q := by cases q <;> rfl
@[simp] theorem State.bump_branch (c : GlobalCounter) (q : BranchId) : (s.bump c).branch q = s.branch q := by cases q <;> rfl
@[simp] theorem State.latchEvent_branch (e : EventFlag) (q : BranchId) : (s.latchEvent e).branch q = s.branch q := by cases q <;> rfl
@[simp] theorem State.setCtx_branch (n : AxisId) (x : Ctx) (q : BranchId) : (s.setCtx n x).branch q = s.branch q := by cases q <;> rfl
@[simp] theorem State.setContest_branch (n : AxisId) (x : Option Contest) (q : BranchId) : (s.setContest n x).branch q = s.branch q := by cases q <;> rfl
@[simp] theorem State.setDwell_branch (r : RigId) (x : Option Nat) (q : BranchId) : (s.setDwell r x).branch q = s.branch q := by cases q <;> rfl
@[simp] theorem State.setCadence_branch (c : Cadence) (q : BranchId) : (s.setCadence c).branch q = s.branch q := by cases q <;> rfl
@[simp] theorem State.makeDue_branch (q : BranchId) : (s.makeDue).branch q = s.branch q := by cases q <;> rfl
@[simp] theorem State.drive_branch (q : BranchId) : (s.drive).branch q = s.branch q := by cases q <;> rfl
@[simp] theorem State.nextGseq_branch (q : BranchId) : (s.nextGseq).branch q = s.branch q := by cases q <;> rfl
@[simp] theorem State.endStep_branch (q : BranchId) : (s.endStep).branch q = s.branch q := by cases q <;> rfl
@[simp] theorem State.judgeMotion_branch (q : BranchId) : (s.judgeMotion).branch q = s.branch q := by cases q <;> rfl
@[simp] theorem State.clearFresh_branch (q : BranchId) : (s.clearFresh).branch q = s.branch q := by cases q <;> rfl
@[simp] theorem State.dropNotice_branch (q : BranchId) : (s.dropNotice).branch q = s.branch q := by cases q <;> rfl
@[simp] theorem State.enterArmed_branch (q : BranchId) : (s.enterArmed).branch q = s.branch q := by cases q <;> rfl
@[simp] theorem State.beginStep_branch (q : BranchId) : (s.beginStep).branch q = s.branch q := by cases q <;> rfl
@[simp] theorem State.setPort_branch (z : PortId) (x : Port) (q : BranchId) : (s.setPort z x).branch q = s.branch q := by cases z <;> cases q <;> rfl
@[simp] theorem State.setRx_branch (z : PortId) (x : Receiver) (q : BranchId) : (s.setRx z x).branch q = s.branch q := by cases z <;> cases q <;> rfl
@[simp] theorem State.setFifo_branch (z : PortId) (x : List Received) (q : BranchId) : (s.setFifo z x).branch q = s.branch q := by cases z <;> cases q <;> rfl
@[simp] theorem State.setTx_branch (z : PortId) (x : Option Sending) (q : BranchId) : (s.setTx z x).branch q = s.branch q := by cases z <;> cases q <;> rfl
@[simp] theorem State.bumpPort_branch (z : PortId) (c : PortCounter) (q : BranchId) : (s.bumpPort z c).branch q = s.branch q := by cases z <;> cases q <;> rfl

@[simp] theorem State.elapse_count (w : Nat) (k : GlobalCounter) : (s.elapse w).count k = s.count k := rfl
@[simp] theorem State.setLine_count (l : LineId) (x : Line) (k : GlobalCounter) : (s.setLine l x).count k = s.count k := rfl
@[simp] theorem State.setNotices_count (l : List Notice) (k : GlobalCounter) : (s.setNotices l).count k = s.count k := rfl
@[simp] theorem State.latchEvent_count (e : EventFlag) (k : GlobalCounter) : (s.latchEvent e).count k = s.count k := rfl
@[simp] theorem State.setCtx_count (n : AxisId) (x : Ctx) (k : GlobalCounter) : (s.setCtx n x).count k = s.count k := rfl
@[simp] theorem State.setContest_count (n : AxisId) (x : Option Contest) (k : GlobalCounter) : (s.setContest n x).count k = s.count k := rfl
@[simp] theorem State.setDwell_count (r : RigId) (x : Option Nat) (k : GlobalCounter) : (s.setDwell r x).count k = s.count k := rfl
@[simp] theorem State.setCadence_count (c : Cadence) (k : GlobalCounter) : (s.setCadence c).count k = s.count k := rfl
@[simp] theorem State.makeDue_count (k : GlobalCounter) : (s.makeDue).count k = s.count k := rfl
@[simp] theorem State.drive_count (k : GlobalCounter) : (s.drive).count k = s.count k := rfl
@[simp] theorem State.placeStatus_count (f : Frame) (k : GlobalCounter) : (s.placeStatus f).count k = s.count k := rfl
@[simp] theorem State.nextGseq_count (k : GlobalCounter) : (s.nextGseq).count k = s.count k := rfl
@[simp] theorem State.endStep_count (k : GlobalCounter) : (s.endStep).count k = s.count k := rfl
@[simp] theorem State.judgeMotion_count (k : GlobalCounter) : (s.judgeMotion).count k = s.count k := rfl
@[simp] theorem State.clearFresh_count (k : GlobalCounter) : (s.clearFresh).count k = s.count k := rfl
@[simp] theorem State.dropNotice_count (k : GlobalCounter) : (s.dropNotice).count k = s.count k := rfl
@[simp] theorem State.enterArmed_count (k : GlobalCounter) : (s.enterArmed).count k = s.count k := rfl
@[simp] theorem State.beginStep_count (k : GlobalCounter) : (s.beginStep).count k = s.count k := rfl
@[simp] theorem State.setPort_count (z : PortId) (x : Port) (k : GlobalCounter) : (s.setPort z x).count k = s.count k := by cases z <;> rfl
@[simp] theorem State.setRx_count (z : PortId) (x : Receiver) (k : GlobalCounter) : (s.setRx z x).count k = s.count k := by cases z <;> rfl
@[simp] theorem State.setFifo_count (z : PortId) (x : List Received) (k : GlobalCounter) : (s.setFifo z x).count k = s.count k := by cases z <;> rfl
@[simp] theorem State.setTx_count (z : PortId) (x : Option Sending) (k : GlobalCounter) : (s.setTx z x).count k = s.count k := by cases z <;> rfl
@[simp] theorem State.bumpPort_count (z : PortId) (c : PortCounter) (k : GlobalCounter) : (s.bumpPort z c).count k = s.count k := by cases z <;> rfl
@[simp] theorem State.setBranch_count (z : BranchId) (x : BranchQueues) (k : GlobalCounter) : (s.setBranch z x).count k = s.count k := by cases z <;> rfl

@[simp] theorem State.elapse_hasEvent (w : Nat) (k : EventFlag) : (s.elapse w).hasEvent k = s.hasEvent k := rfl
@[simp] theorem State.setLine_hasEvent (l : LineId) (x : Line) (k : EventFlag) : (s.setLine l x).hasEvent k = s.hasEvent k := rfl
@[simp] theorem State.setNotices_hasEvent (l : List Notice) (k : EventFlag) : (s.setNotices l).hasEvent k = s.hasEvent k := rfl
@[simp] theorem State.bump_hasEvent (c : GlobalCounter) (k : EventFlag) : (s.bump c).hasEvent k = s.hasEvent k := rfl
@[simp] theorem State.setCtx_hasEvent (n : AxisId) (x : Ctx) (k : EventFlag) : (s.setCtx n x).hasEvent k = s.hasEvent k := rfl
@[simp] theorem State.setContest_hasEvent (n : AxisId) (x : Option Contest) (k : EventFlag) : (s.setContest n x).hasEvent k = s.hasEvent k := rfl
@[simp] theorem State.setDwell_hasEvent (r : RigId) (x : Option Nat) (k : EventFlag) : (s.setDwell r x).hasEvent k = s.hasEvent k := rfl
@[simp] theorem State.setCadence_hasEvent (c : Cadence) (k : EventFlag) : (s.setCadence c).hasEvent k = s.hasEvent k := rfl
@[simp] theorem State.makeDue_hasEvent (k : EventFlag) : (s.makeDue).hasEvent k = s.hasEvent k := rfl
@[simp] theorem State.drive_hasEvent (k : EventFlag) : (s.drive).hasEvent k = s.hasEvent k := rfl
@[simp] theorem State.placeStatus_hasEvent (f : Frame) (k : EventFlag) : (s.placeStatus f).hasEvent k = s.hasEvent k := rfl
@[simp] theorem State.nextGseq_hasEvent (k : EventFlag) : (s.nextGseq).hasEvent k = s.hasEvent k := rfl
@[simp] theorem State.endStep_hasEvent (k : EventFlag) : (s.endStep).hasEvent k = s.hasEvent k := rfl
@[simp] theorem State.judgeMotion_hasEvent (k : EventFlag) : (s.judgeMotion).hasEvent k = s.hasEvent k := rfl
@[simp] theorem State.clearFresh_hasEvent (k : EventFlag) : (s.clearFresh).hasEvent k = s.hasEvent k := rfl
@[simp] theorem State.dropNotice_hasEvent (k : EventFlag) : (s.dropNotice).hasEvent k = s.hasEvent k := rfl
@[simp] theorem State.enterArmed_hasEvent (k : EventFlag) : (s.enterArmed).hasEvent k = s.hasEvent k := rfl
@[simp] theorem State.beginStep_hasEvent (k : EventFlag) : (s.beginStep).hasEvent k = s.hasEvent k := rfl
@[simp] theorem State.setPort_hasEvent (z : PortId) (x : Port) (k : EventFlag) : (s.setPort z x).hasEvent k = s.hasEvent k := by cases z <;> rfl
@[simp] theorem State.setRx_hasEvent (z : PortId) (x : Receiver) (k : EventFlag) : (s.setRx z x).hasEvent k = s.hasEvent k := by cases z <;> rfl
@[simp] theorem State.setFifo_hasEvent (z : PortId) (x : List Received) (k : EventFlag) : (s.setFifo z x).hasEvent k = s.hasEvent k := by cases z <;> rfl
@[simp] theorem State.setTx_hasEvent (z : PortId) (x : Option Sending) (k : EventFlag) : (s.setTx z x).hasEvent k = s.hasEvent k := by cases z <;> rfl
@[simp] theorem State.bumpPort_hasEvent (z : PortId) (c : PortCounter) (k : EventFlag) : (s.bumpPort z c).hasEvent k = s.hasEvent k := by cases z <;> rfl
@[simp] theorem State.setBranch_hasEvent (z : BranchId) (x : BranchQueues) (k : EventFlag) : (s.setBranch z x).hasEvent k = s.hasEvent k := by cases z <;> rfl

/-! ## The views that change -/

@[simp] theorem State.setCtx_ctx (n m : AxisId) (x : Ctx) :
    (s.setCtx n x).ctx m = if n = m then x else s.ctx m := by simp [State.ctx]

@[simp] theorem State.clearFresh_ctx (n : AxisId) : s.clearFresh.ctx n = { s.ctx n with fresh := false } := by
  simp [State.ctx]

@[simp] theorem State.setContest_contest (n m : AxisId) (x : Option Contest) :
    (s.setContest n x).contest m = if n = m then x else s.contest m := by simp [State.contest]

theorem LineId.idx_inj (k l : LineId) (h : k.idx = l.idx) : k = l := by
  cases k <;> cases l <;> simp_all [LineId.idx, Fin.ext_iff] <;> omega

@[simp] theorem State.setLine_line (k l : LineId) (x : Line) :
    (s.setLine k x).line l = if k = l then x else s.line l := by
  by_cases h : k = l
  · simp [State.line, h]
  · have : k.idx ≠ l.idx := fun e => h (LineId.idx_inj k l e)
    simp [State.line, h, this]

/-- The twenty global counters in the order of R184. -/
def GlobalCounter.all : List GlobalCounter :=
  [.badSetpoint, .duplicate, .seqGap, .jitter, .unrouted, .passBlocked, .crossed, .stale, .fwdDrop, .mgmtDrop]
    ++ allAxes.map .targetClamped ++ [.late .b0, .late .b1]

theorem GlobalCounter.all_idx (c : GlobalCounter) : GlobalCounter.all.getD c.idx.val .badSetpoint = c := by
  cases c with
  | targetClamped n => revert n; decide
  | late b => cases b <;> rfl
  | _ => rfl

theorem GlobalCounter.idx_inj (a b : GlobalCounter) (h : a.idx = b.idx) : a = b := by
  rw [← a.all_idx, ← b.all_idx, h]

/-- The twenty-two event flags in the order of R182. -/
def EventFlag.all : List EventFlag :=
  [.powerUp, .trip] ++ allAxes.map .axisFault ++ allRigs.map .rigFault
    ++ [.cadence, .linkU, .link .b0, .link .b1, .late .b0, .late .b1, .swap, .mgmtDrop]

theorem EventFlag.all_idx (e : EventFlag) : EventFlag.all.getD e.idx .powerUp = e := by
  cases e with
  | axisFault n => revert n; decide
  | rigFault r => revert r; decide
  | link b => cases b <;> rfl
  | late b => cases b <;> rfl
  | _ => rfl

theorem EventFlag.idx_inj (a b : EventFlag) (h : a.idx = b.idx) : a = b := by
  rw [← a.all_idx, ← b.all_idx, h]

theorem EventFlag.idx_lt (e : EventFlag) : e.idx < 22 := by
  cases e with
  | axisFault n => simp only [EventFlag.idx]; omega
  | rigFault r => simp only [EventFlag.idx]; omega
  | link b => cases b <;> decide
  | late b => cases b <;> decide
  | _ => decide

@[simp] theorem State.latchEvent_hasEvent (e f : EventFlag) :
    (s.latchEvent e).hasEvent f = (s.hasEvent f || decide (e = f)) := by
  by_cases h : e = f
  · subst h; simp [State.hasEvent, e.idx_lt]
  · have : e.idx ≠ f.idx := fun x => h (EventFlag.idx_inj e f x)
    simp [State.hasEvent, BitVec.getLsbD_twoPow, h, this]

@[simp] theorem State.bump_count (c d : GlobalCounter) :
    (s.bump c).count d = if c = d then satInc (s.count d) else s.count d := by
  by_cases h : c = d
  · simp [State.count, h]
  · have : c.idx ≠ d.idx := fun e => h (GlobalCounter.idx_inj c d e)
    simp [State.count, h, this]

@[simp] theorem State.setPort_port (p q : PortId) (x : Port) :
    (s.setPort p x).port q = if p = q then x else s.port q := by cases p <;> cases q <;> rfl

@[simp] theorem State.setRx_port (p q : PortId) (x : Receiver) :
    (s.setRx p x).port q = if p = q then { s.port q with rx := x } else s.port q := by
  cases p <;> cases q <;> rfl

@[simp] theorem State.setFifo_port (p q : PortId) (x : List Received) :
    (s.setFifo p x).port q = if p = q then { s.port q with fifo := x } else s.port q := by
  cases p <;> cases q <;> rfl

@[simp] theorem State.setTx_port (p q : PortId) (x : Option Sending) :
    (s.setTx p x).port q = if p = q then { s.port q with tx := x } else s.port q := by
  cases p <;> cases q <;> rfl

@[simp] theorem State.setBranch_branch (b c : BranchId) (x : BranchQueues) :
    (s.setBranch b x).branch c = if b = c then x else s.branch c := by cases b <;> cases c <;> rfl

@[simp] theorem State.setBranch_status (b : BranchId) (x : BranchQueues) :
    (s.setBranch b x).queues.status = s.queues.status := by cases b <;> rfl
@[simp] theorem State.setBranch_responses (b : BranchId) (x : BranchQueues) :
    (s.setBranch b x).queues.responses = s.queues.responses := by cases b <;> rfl
@[simp] theorem State.setBranch_forward (b : BranchId) (x : BranchQueues) :
    (s.setBranch b x).queues.forward = s.queues.forward := by cases b <;> rfl

end Sys2Proof.Machine
end

