-- ==== Sys2Proof/Laws/Ops.lean ====
section
/-! SUPPORT. One lemma for each shared operation that says once everything it can do; the provers cite these in
place of unfolding the operations. -/

namespace Sys2Proof.Machine

/-! ## Frames -/

theorem Part.same_refl (s : State) (p : Part) : p.same s s := by cases p <;> rfl

theorem Part.same_trans {s t u : State} {p : Part} (h : p.same s t) (k : p.same t u) : p.same s u := by
  cases p <;> exact Eq.trans k h

theorem State.keepsBut_refl (l : List Part) (s : State) : s.keepsBut l s := fun p _ => Part.same_refl s p

theorem State.keepsBut_mono {l m : List Part} {s t : State} (h : s.keepsBut l t) (sub : l ⊆ m) : s.keepsBut m t :=
  fun p hp => h p fun hl => hp (sub hl)

theorem State.keepsBut_trans {l : List Part} {s t u : State} (h : s.keepsBut l t) (k : t.keepsBut l u) :
    s.keepsBut l u := fun p hp => Part.same_trans (h p hp) (k p hp)

theorem State.keepsBut_ite {l : List Part} {s t u : State} {c : Prop} [Decidable c] (h : s.keepsBut l t)
    (k : s.keepsBut l u) : s.keepsBut l (if c then t else u) := by split <;> assumption

/-- What a fold of steps that each keep everything but some parts keeps. -/
theorem State.keepsBut_foldl {α : Type} {l : List Part} (f : State → α → State)
    (h : ∀ (s : State) (x : α), s.keepsBut l (f s x)) (xs : List α) (s : State) : s.keepsBut l (xs.foldl f s) := by
  induction xs generalizing s with
  | nil => exact State.keepsBut_refl l s
  | cons x xs ih => exact State.keepsBut_trans (h s x) (ih (f s x))

section Updates

variable (s : State)

theorem State.elapse_keeps (w : Nat) : s.keepsBut [.clock] (s.elapse w) := by
  intro p hp; cases p <;> first | rfl | exact absurd (by decide) hp

theorem State.advanceTo_clock (d : Ticks) : (s.advanceTo d).clock = s.clockAt d := by
  unfold State.advanceTo State.clockAt; split <;> rfl

theorem State.advanceTo_keeps (d : Ticks) : s.keepsBut [.clock] (s.advanceTo d) := by
  unfold State.advanceTo; split
  · exact State.keepsBut_refl _ s
  · intro p hp; cases p <;> first | rfl | exact absurd (by decide) hp

theorem State.setPort_keeps (p : PortId) (x : Port) : s.keepsBut [.port p] (s.setPort p x) := by
  intro q hq
  cases q with
  | port q => cases p <;> cases q <;> first | rfl | exact absurd (by decide) hq
  | _ => cases p <;> rfl

theorem State.setRx_keeps (p : PortId) (x : Receiver) : s.keepsBut [.port p] (s.setRx p x) := s.setPort_keeps p _
theorem State.setFifo_keeps (p : PortId) (x : List Received) : s.keepsBut [.port p] (s.setFifo p x) :=
  s.setPort_keeps p _
theorem State.setTx_keeps (p : PortId) (x : Option Sending) : s.keepsBut [.port p] (s.setTx p x) :=
  s.setPort_keeps p _
theorem State.bumpPort_keeps (p : PortId) (c : PortCounter) : s.keepsBut [.port p] (s.bumpPort p c) :=
  s.setPort_keeps p _

theorem State.setBranch_keeps (b : BranchId) (x : BranchQueues) : s.keepsBut [.queues] (s.setBranch b x) := by
  intro p hp; cases b <;> cases p <;> first | rfl | exact absurd (by decide) hp

theorem State.setLine_keeps (l : LineId) (x : Line) : s.keepsBut [.lines] (s.setLine l x) := by
  intro p hp; cases p <;> first | rfl | exact absurd (by decide) hp

theorem State.setNotices_keeps (l : List Notice) : s.keepsBut [.engine] (s.setNotices l) := by
  intro p hp; cases p <;> first | rfl | exact absurd (by decide) hp

theorem State.bump_keeps (c : GlobalCounter) : s.keepsBut [.counters] (s.bump c) := by
  intro p hp; cases p <;> first | rfl | exact absurd (by decide) hp

theorem State.latchEvent_keeps (e : EventFlag) : s.keepsBut [.latch] (s.latchEvent e) := by
  intro p hp; cases p <;> first | rfl | exact absurd (by decide) hp

theorem State.setCtx_keeps (n : AxisId) (x : Ctx) : s.keepsBut [.axes] (s.setCtx n x) := by
  intro p hp; cases p <;> first | rfl | exact absurd (by decide) hp

theorem State.setContest_keeps (n : AxisId) (x : Option Contest) : s.keepsBut [.contests] (s.setContest n x) := by
  intro p hp; cases p <;> first | rfl | exact absurd (by decide) hp

theorem State.setDwell_keeps (r : RigId) (x : Option Nat) : s.keepsBut [.dwell] (s.setDwell r x) := by
  intro p hp; cases p <;> first | rfl | exact absurd (by decide) hp

theorem State.setCadence_keeps (c : Cadence) : s.keepsBut [.cadence] (s.setCadence c) := by
  intro p hp; cases p <;> first | rfl | exact absurd (by decide) hp

theorem State.makeDue_keeps : s.keepsBut [.engine] s.makeDue := by
  intro p hp; cases p <;> first | rfl | exact absurd (by decide) hp

theorem State.drive_keeps : s.keepsBut [.outputs] s.drive := by
  intro p hp; cases p <;> first | rfl | exact absurd (by decide) hp

theorem State.drive_follows : s.drive.OutputsFollow := rfl

end Updates

/-! ## How a command ends -/

theorem act_high (f : State → State) {s : State} (h : s.resetLow = false) : act f s = .next (f s).drive := by
  simp [act, h]

theorem act_low (f : State → State) {s : State} (h : s.resetLow = true) : act f s = .next s := by
  simp [act, h]

/-! ## Counters and the latch -/

theorem satInc_le (c : Count) : c ≤ satInc c := by
  unfold satInc; split
  · exact BitVec.le_refl c
  · bv_omega

theorem State.latches_nil (s : State) : s.latches [] s := by simp [State.latches]

theorem State.latches_latchEvent (s : State) (e : EventFlag) : s.latches [e] (s.latchEvent e) := by
  intro f; simp [State.latchEvent_hasEvent, eq_comm, Bool.or_comm]

theorem State.counts_bump (s : State) (c : GlobalCounter) : s.counts [c] (s.bump c) := by
  intro d; simp [State.bump_count, eq_comm]

/-! ## Governor control -/

/-- A cause joins: nothing in SAFE, the trip in ARMED, one more cause in TRIPPED. -/
theorem State.joinCause_cases (s : State) (c : TripCause) :
    (s.governor.state = .safe ∧ s.joinCause c = s)
      ∨ (s.governor.state = .armed
        ∧ s.joinCause c = { s with
            governor := { s.governor with state := .tripped, causes := causeAdd s.governor.causes c }
            latch := s.latch ||| BitVec.twoPow 22 EventFlag.trip.idx
            engine := { s.engine with notices := placeOnce .tripEntry s.engine.notices } })
      ∨ (s.governor.state = .tripped
        ∧ s.joinCause c = { s with governor := { s.governor with causes := causeAdd s.governor.causes c } }) := by
  unfold State.joinCause
  cases h : s.governor.state
  · exact .inl ⟨rfl, rfl⟩
  · exact .inr (.inl ⟨rfl, rfl⟩)
  · exact .inr (.inr ⟨rfl, rfl⟩)

theorem mem_placeOnce (n : Notice) (l : List Notice) : n ∈ placeOnce n l := by
  unfold placeOnce; split <;> simp_all

theorem State.joinCause_keeps (s : State) (c : TripCause) :
    s.keepsBut [.governor, .latch, .engine] (s.joinCause c) := by
  rcases s.joinCause_cases c with ⟨-, h⟩ | ⟨-, h⟩ | ⟨-, h⟩ <;> rw [h]
  · exact State.keepsBut_refl _ s
  · intro p hp; cases p <;> first | rfl | exact absurd (by decide) hp
  · intro p hp; cases p <;> first | rfl | exact absurd (by decide) hp

theorem State.joinCause_tripRaised (s : State) (c : TripCause) : s.tripRaised c (s.joinCause c) := by
  rcases s.joinCause_cases c with ⟨h, e⟩ | ⟨h, e⟩ | ⟨h, e⟩ <;> rw [e] <;> simp only [State.tripRaised, h]
  · exact ⟨trivial, trivial⟩
  · refine ⟨trivial, trivial, ?_, mem_placeOnce _ _⟩
    exact (State.latchEvent_hasEvent (s := s) _ _).trans (by simp)
  · exact ⟨trivial, trivial⟩

/-- Raising a cause leaves the condition flags, and of the engine changes the waiting notices alone. -/
theorem State.joinCause_frame (s : State) (c : TripCause) : s.keepsConditions (s.joinCause c)
    ∧ (s.joinCause c).engine = { s.engine with notices := s.noticesAtTrip } := by
  rcases s.joinCause_cases c with ⟨h, e⟩ | ⟨h, e⟩ | ⟨h, e⟩ <;> rw [e] <;>
    exact ⟨rfl, by simp [State.noticesAtTrip, h]⟩

/-- An active cause leaves the set unless the governor is SAFE. -/
theorem State.leaveCause_eq (s : State) (c : TripCause) :
    s.leaveCause c = { s with governor := { s.governor with
      causes := if s.governor.state = .safe then s.governor.causes else causeDrop s.governor.causes c } } := by
  unfold State.leaveCause; cases h : s.governor.state <;> simp

theorem State.leaveCause_keeps (s : State) (c : TripCause) : s.keepsBut [.governor] (s.leaveCause c) := by
  rw [State.leaveCause_eq]; intro p hp; cases p <;> first | rfl | exact absurd (by decide) hp

/-- A report of a condition: nothing when the flag already stands so, else the flag changes and the cause joins or
leaves. -/
theorem State.reportCondition_cases (s : State) (c : TripCause) (b : Bool) :
    (s.governor.condition c = b ∧ s.reportCondition c b = s)
      ∨ (s.governor.condition c = false ∧ b = true ∧ s.reportCondition c b
        = State.joinCause c { s with governor := s.governor.withCondition c true })
      ∨ (s.governor.condition c = true ∧ b = false ∧ s.reportCondition c b
        = State.leaveCause c { s with governor := s.governor.withCondition c false }) := by
  unfold State.reportCondition
  cases h : s.governor.condition c <;> cases b <;> simp

theorem State.reportCondition_keeps (s : State) (c : TripCause) (b : Bool) :
    s.keepsBut [.governor, .latch, .engine] (s.reportCondition c b) := by
  have g : ∀ x, s.keepsBut [.governor, .latch, .engine] { s with governor := x } := by
    intro x p hp; cases p <;> first | rfl | exact absurd (by decide) hp
  rcases s.reportCondition_cases c b with ⟨-, h⟩ | ⟨-, -, h⟩ | ⟨-, -, h⟩ <;> rw [h]
  · exact State.keepsBut_refl _ s
  · exact State.keepsBut_trans (g _) (State.joinCause_keeps _ _)
  · exact State.keepsBut_trans (g _) (State.keepsBut_mono (State.leaveCause_keeps _ _) (by decide))

theorem State.reportStuck_keeps (s : State) : s.keepsBut [.governor, .latch, .engine] s.reportStuck :=
  s.reportCondition_keeps _ _

/-- With the flag true to the contests, a report of the stuck flags changes nothing. -/
theorem State.reportStuck_same (s : State) (h : s.governor.stuck = s.anyStuck) : s.reportStuck = s := by
  simp [State.reportStuck, State.reportCondition, Governor.condition, h]

/-! ## Contexts and contests -/

theorem State.restartContest_keeps (s : State) (n : AxisId) (b : Bool) :
    s.keepsBut [.contests, .governor, .latch, .engine] (s.restartContest n b) := by
  unfold State.restartContest; split
  · exact State.keepsBut_refl _ s
  · exact State.keepsBut_trans (State.keepsBut_mono (s.setContest_keeps n _) (by decide))
      (State.keepsBut_mono (State.reportStuck_keeps _) (by decide))

/-- A context is replaced; the rest changes only where its brake permission does. -/
theorem State.changeCtx_cases (s : State) (n : AxisId) (x : Ctx) :
    ((s.ctx n).state.permission = x.state.permission ∧ s.changeCtx n x = s.setCtx n x)
      ∨ ((s.ctx n).state.permission ≠ x.state.permission
        ∧ s.changeCtx n x = (s.setCtx n x).restartContest n x.state.permission) := by
  unfold State.changeCtx; split
  · exact .inl ⟨by assumption, rfl⟩
  · exact .inr ⟨by assumption, rfl⟩

theorem State.changeCtx_keeps (s : State) (n : AxisId) (x : Ctx) :
    s.keepsBut [.axes, .contests, .governor, .latch, .engine] (s.changeCtx n x) := by
  have h := State.keepsBut_mono (s.setCtx_keeps n x) (m := [.axes, .contests, .governor, .latch, .engine]) (by decide)
  rcases s.changeCtx_cases n x with ⟨-, e⟩ | ⟨-, e⟩ <;> rw [e]
  · exact h
  · exact State.keepsBut_trans h (State.keepsBut_mono (State.restartContest_keeps _ _ _) (by decide))

theorem State.changeCtx_axes (s : State) (n : AxisId) (x : Ctx) :
    (s.changeCtx n x).axes = (s.setCtx n x).axes := by
  rcases s.changeCtx_cases n x with ⟨-, e⟩ | ⟨-, e⟩ <;> rw [e]
  exact State.restartContest_keeps _ _ _ .axes (by decide)

@[simp] theorem State.changeCtx_ctx (s : State) (n m : AxisId) (x : Ctx) :
    (s.changeCtx n x).ctx m = if n = m then x else s.ctx m := by
  have h : (s.changeCtx n x).ctx m = (s.setCtx n x).ctx m := by
    simp only [State.ctx, State.changeCtx_axes]
  rw [h, State.setCtx_ctx]

theorem State.enterState_keeps (s : State) (n : AxisId) (st : AxisState) :
    s.keepsBut [.axes, .contests, .governor, .latch, .engine] (s.enterState n st) := s.changeCtx_keeps n _

/-! ## Fault causes -/

theorem State.latchFault_keeps (s : State) (n : AxisId) : s.keepsBut [.latch] (s.latchFault n) := by
  unfold State.latchFault; split
  · exact s.latchEvent_keeps _
  · exact State.keepsBut_trans (s.latchEvent_keeps _) (State.latchEvent_keeps _ _)

theorem State.takeOverMember_keeps (s : State) (m : AxisId) :
    s.keepsBut [.axes, .contests, .governor, .latch, .engine] (s.takeOverMember m) := by
  unfold State.takeOverMember; dsimp only; split
  · exact State.keepsBut_refl _ s
  · split
    · exact State.keepsBut_mono (s.setCtx_keeps _ _) (by decide)
    · exact State.keepsBut_trans (s.changeCtx_keeps _ _)
        (State.keepsBut_mono (State.latchEvent_keeps _ _) (by decide))

theorem State.takeOver_keeps (s : State) (n : AxisId) :
    s.keepsBut [.axes, .contests, .governor, .latch, .engine] (s.takeOver n) := by
  unfold State.takeOver; split
  · exact State.keepsBut_refl _ s
  · exact State.keepsBut_foldl _ State.takeOverMember_keeps _ s

/-- What a raised cause leaves alone. -/
theorem Judging.raise_keeps (before : Vector Ctx 8) (n : AxisId) (c : Cause) (j : Judging) :
    j.st.keepsBut [.axes, .contests, .governor, .latch, .engine] (j.raise before n c).st := by
  have set : ∀ x, j.st.keepsBut [.axes, .contests, .governor, .latch, .engine] (j.st.setCtx n x) :=
    fun x => State.keepsBut_mono (State.setCtx_keeps _ _ _) (by decide)
  have latch : ∀ t : State, t.keepsBut [.axes, .contests, .governor, .latch, .engine] (t.latchFault n) :=
    fun t => State.keepsBut_mono (State.latchFault_keeps _ _) (by decide)
  unfold Judging.raise; dsimp only
  split
  · exact State.keepsBut_refl _ _
  split
  · exact State.keepsBut_refl _ _
  split
  · exact set _
  split
  · exact set _
  · exact State.keepsBut_trans (State.keepsBut_trans (set _) (latch _))
      (State.keepsBut_mono (State.joinCause_keeps _ _) (by decide))
  · exact State.keepsBut_trans (State.keepsBut_trans (State.changeCtx_keeps _ _ _) (latch _))
      (State.takeOver_keeps _ _)
  · exact State.keepsBut_trans (State.keepsBut_trans (State.changeCtx_keeps _ _ _) (latch _))
      (State.takeOver_keeps _ _)

theorem Judging.raiseOnce_keeps (before : Vector Ctx 8) (n : AxisId) (c : Cause) (j : Judging) :
    j.st.keepsBut [.axes, .contests, .governor, .latch, .engine] (j.raiseOnce before n c).st := by
  unfold Judging.raiseOnce; split
  · exact State.keepsBut_refl _ _
  · exact j.raise_keeps before n c

/-! ## Transmitters and queues -/

/-- A busy transmitter starts nothing (R19). -/
theorem State.startTx_busy {s : State} {p : PortId} {x : Sending} (h : (s.port p).tx = some x) : s.startTx p = s := by
  simp [State.startTx, h]

/-- A transmitter that is busy, or whose queues are empty, starts nothing; a free one sends what its arbiter
chooses. -/
theorem State.startTx_cases (s : State) (p : PortId) :
    (((s.port p).tx ≠ none ∨ s.nextOn p = none) ∧ s.startTx p = s)
      ∨ ∃ f s1, (s.port p).tx = none ∧ s.nextOn p = some (f, s1)
        ∧ s.startTx p = s1.setTx p (some (sendingOf f s.clock)) := by
  unfold State.startTx
  cases h : (s.port p).tx with
  | some x => exact .inl ⟨.inl (by simp), rfl⟩
  | none =>
    cases k : s.nextOn p with
    | none => exact .inl ⟨.inr rfl, rfl⟩
    | some fs => exact .inr ⟨fs.1, fs.2, rfl, rfl, rfl⟩

theorem State.nextOn_keeps {s s1 : State} {p : PortId} {f : Frame} (h : s.nextOn p = some (f, s1)) :
    s.keepsBut [.queues] s1 := by
  unfold State.nextOn State.nextOnU State.nextOnBranch at h
  split at h <;> (try dsimp only at h) <;> split at h <;> simp only [Option.some.injEq, Prod.mk.injEq, reduceCtorEq] at h
  all_goals
    obtain ⟨-, rfl⟩ := h
    first
    | exact s.setBranch_keeps _ _
    | (intro p hp; cases p <;> first | rfl | exact absurd (by decide) hp)

theorem State.startTx_keeps (s : State) (p : PortId) : s.keepsBut [.queues, .port p] (s.startTx p) := by
  rcases s.startTx_cases p with ⟨-, h⟩ | ⟨f, s1, -, k, h⟩ <;> rw [h]
  · exact State.keepsBut_refl _ s
  · exact State.keepsBut_trans (State.keepsBut_mono (State.nextOn_keeps k) (by simp))
      (State.keepsBut_mono (s1.setTx_keeps p _) (by simp))

theorem State.placeResponse_keeps (s : State) (f : Frame) : s.keepsBut [.queues, .port .u] (s.placeResponse f) := by
  refine State.keepsBut_trans (t := { s with queues := { s.queues with responses := s.queues.responses ++ [f] } })
    ?_ (State.startTx_keeps _ _)
  intro p hp; cases p <;> first | rfl | exact absurd (by simp) hp

theorem State.placeForward_keeps (s : State) (f : Frame) :
    s.keepsBut [.queues, .port .u, .counters] (s.placeForward f) := by
  unfold State.placeForward; split
  · refine State.keepsBut_trans (t := { s with queues := { s.queues with forward := s.queues.forward ++ [f] } })
      ?_ (State.keepsBut_mono (State.startTx_keeps _ _) (by simp))
    intro p hp; cases p <;> first | rfl | exact absurd (by simp) hp
  · exact State.keepsBut_mono (s.bump_keeps _) (by simp)

theorem State.placePassthrough_keeps (s : State) (b : BranchId) (f : Frame) :
    s.keepsBut [.queues, .port .da, .port .db, .counters] (s.placePassthrough b f) := by
  unfold State.placePassthrough; dsimp only; split
  · refine State.keepsBut_trans (State.keepsBut_mono (s.setBranch_keeps b _) (by simp))
      (State.keepsBut_mono (State.startTx_keeps _ _) ?_)
    cases h : (State.router _).mapping <;> cases b <;> simp [portOf]
  · exact State.keepsBut_mono (s.bump_keeps _) (by simp)

theorem State.dispose_keeps (s : State) (v : Verdict) (f : Frame) :
    s.keepsBut [.queues, .port .u, .port .da, .port .db, .counters] (s.dispose v f) := by
  unfold State.dispose; split
  · exact State.keepsBut_refl _ s
  · exact State.keepsBut_mono (s.placePassthrough_keeps _ _) (by simp)
  · exact State.keepsBut_mono (s.placeForward_keeps _) (by simp)
  · exact State.keepsBut_mono (s.bump_keeps _) (by simp)

/-- Frames leave from the head of a list up to the first that is work for the engine. -/
theorem routeFrames_keeps (p : PortId) (l : List Received) (s : State) :
    s.keepsBut [.queues, .port .u, .port .da, .port .db, .counters] (routeFrames p l s).2
      ∧ ∃ gone, l = gone ++ (routeFrames p l s).1 := by
  induction l generalizing s with
  | nil => exact ⟨State.keepsBut_refl _ s, [], rfl⟩
  | cons r rest ih =>
    unfold routeFrames; split
    · exact ⟨State.keepsBut_refl _ s, [], rfl⟩
    · obtain ⟨h, gone, e⟩ := ih (s.dispose (s.judgeHead p r.frame) r.frame)
      exact ⟨State.keepsBut_trans (s.dispose_keeps _ _) h, r :: gone, by rw [List.cons_append, ← e]⟩

/-- An empty FIFO has nothing to route (R25). -/
theorem State.route_nil {s : State} {p : PortId} (h : (s.port p).fifo = []) : s.route p = s.setFifo p [] := by
  simp [State.route, routeFrames, h]


theorem State.route_keeps (s : State) (p : PortId) :
    s.keepsBut [.queues, .port .u, .port .da, .port .db, .counters] (s.route p) := by
  unfold State.route
  refine State.keepsBut_trans (routeFrames_keeps p (s.port p).fifo s).1
    (State.keepsBut_mono (State.setFifo_keeps _ _ _) ?_)
  cases p <;> simp

/-! ## The engine's work -/

/-- A request command acts on the console's frame the arbiter chooses, when it is of its kind, and else not at
all. -/
theorem State.takeRequest_cases (s : State) (k : ReqKind) (eff : Frame → State → State × Reply) :
    (s.takeRequest k eff = s
        ∧ ∀ r, s.arbiter = some (.console r) → ¬ (r.frame.kind = kindRequest ∧ r.frame.request = k))
      ∨ ∃ r, s.arbiter = some (.console r) ∧ r.frame.kind = kindRequest ∧ r.frame.request = k
        ∧ s.takeRequest k eff = ((s.dropHead .u).answer r.frame eff).route .u := by
  unfold State.takeRequest
  split
  · rename_i r h
    split
    · rename_i c; exact .inr ⟨r, h, c.1, c.2, rfl⟩
    · rename_i c
      exact .inl ⟨rfl, fun r' h' => by rw [h] at h'; cases h'; exact c⟩
  · rename_i h; exact .inl ⟨rfl, fun r h' => absurd h' (h r)⟩

/-- A request is dropped and counted when U's response FIFO is full; else it acts and its response is placed. -/
theorem State.answer_cases (s : State) (f : Frame) (eff : Frame → State → State × Reply) :
    (s.queues.responses.length < Config.responseDepth
        ∧ s.answer f eff = (eff f s).1.placeResponse (responseFrame f (eff f s).2))
      ∨ (Config.responseDepth ≤ s.queues.responses.length
        ∧ s.answer f eff = (s.latchEvent .mgmtDrop).bump .mgmtDrop) := by
  unfold State.answer; split
  · exact .inl ⟨by assumption, rfl⟩
  · exact .inr ⟨by omega, rfl⟩

/-- A judged request that is refused leaves the state as it stands. -/
theorem judged_refused (check : Frame → State → Result) (effect : Frame → State → State) {f : Frame} {s : State}
    (h : check f s ≠ .ok) : judged check effect f s = (s, reply (check f s)) := by simp [judged, h]

theorem judged_ok (check : Frame → State → Result) (effect : Frame → State → State) {f : Frame} {s : State}
    (h : check f s = .ok) : judged check effect f s = (effect f s, reply .ok) := by simp [judged, h]

/-- A notice command acts on the oldest notice when the arbiter chooses it and an effect is named for it. -/
theorem State.takeNotice_cases (s : State) (effect : Notice → Option (State → State)) :
    (s.takeNotice effect = s ∧ ∀ n, s.arbiter = some (.notice n) → effect n = none)
      ∨ ∃ n e, s.arbiter = some (.notice n) ∧ effect n = some e ∧ s.takeNotice effect = e s.dropNotice := by
  unfold State.takeNotice
  split
  · rename_i n h
    cases k : effect n with
    | none => exact .inl ⟨rfl, fun m h' => by rw [h] at h'; cases h'; exact k⟩
    | some e => exact .inr ⟨n, e, h, k, rfl⟩
  · rename_i h; exact .inl ⟨rfl, fun n h' => absurd h' (h n)⟩

/-- What the arbiter chooses, and when (R55, R56). -/
theorem State.arbiter_notice {s : State} {n : Notice} (h : s.arbiter = some (.notice n)) :
    s.engine.inFlight = none ∧ ∃ rest, s.engine.notices = n :: rest := by
  unfold State.arbiter at h
  split at h
  · cases h
  · rename_i hf
    refine ⟨hf, ?_⟩
    split at h
    · rename_i m rest hn; cases h; exact ⟨rest, hn⟩
    · split at h
      · cases h
      · split at h
        · cases h
        · unfold State.driveWork at h; dsimp only at h; split at h
          · cases h
          · cases k : s.engineHead (portOf s.router.mapping (otherBranch s.engine.nextBranch)) <;> simp [k] at h

theorem State.arbiter_console {s : State} {r : Received} (h : s.arbiter = some (.console r)) :
    s.engine.inFlight = none ∧ s.engine.notices = [] ∧ s.engine.due = false
      ∧ (∃ rest, s.u.fifo = r :: rest) ∧ s.judgeU r.frame = .engine := by
  unfold State.arbiter at h
  split at h
  · cases h
  rename_i hf
  split at h
  · cases h
  rename_i hn
  split at h
  · cases h
  rename_i hd
  refine ⟨hf, hn, by simpa using hd, ?_⟩
  split at h
  · rename_i x hx
    cases h
    unfold State.engineHead at hx
    split at hx
    · cases hx
    · rename_i y rest hy
      split at hx
      · rename_i hj; cases hx; exact ⟨⟨rest, hy⟩, hj⟩
      · cases hx
  · unfold State.driveWork at h; dsimp only at h; split at h
    · cases h
    · cases k : s.engineHead (portOf s.router.mapping (otherBranch s.engine.nextBranch)) <;> simp [k] at h

/-! ## Overdue events and the union of a write -/

/-- A gap that idle reached by an edge is taken; else nothing changes (R4). -/
theorem State.overdueGap_cases (s : State) (p : PortId) (edge : Ticks) :
    (s.gapNotDue p edge ∧ s.overdueGap p edge = s) ∨ (¬ s.gapNotDue p edge ∧ s.overdueGap p edge = s.gapAt p) := by
  unfold State.overdueGap State.gapNotDue
  cases h : (s.port p).rx.idleFrom with
  | none => simp
  | some t =>
    cases k : reached (t + 20) edge with
    | false => exact .inl ⟨by simpa using k, if_neg (by simpa [Config.gapTicks] using k)⟩
    | true => exact .inr ⟨by simpa using k, if_pos (by simpa [Config.gapTicks] using k)⟩

/-- A noted change that has stood its filter time by a moment is accepted; else nothing changes (R160). -/
theorem State.overdueAcceptance_cases (s : State) (l : LineId) (now : Ticks) :
    (s.overdueAcceptance l now = s
        ∧ ∀ t ∈ (s.line l).noted, reached (ticksOf (addMicros t (s.filterMicros l))) now = false)
      ∨ ∃ t ∈ (s.line l).noted, reached (ticksOf (addMicros t (s.filterMicros l))) now = true
        ∧ s.overdueAcceptance l now = s.inputAccepted l := by
  unfold State.overdueAcceptance
  cases h : (s.line l).noted with
  | none => exact .inl ⟨rfl, by simp⟩
  | some t =>
    cases k : reached (ticksOf (addMicros t (s.filterMicros l))) now with
    | false => exact .inl ⟨if_neg (by simp [k]), by simpa using k⟩
    | true => exact .inr ⟨t, rfl, k, if_pos (by simp [k])⟩

/-- The union reads a carried entry where one is carried and the table elsewhere (R69). -/
theorem unionOf_carriedAll {α : Type} {n : Nat} (decode : List Byte → α) (t : TableId) (f : Frame) (v : Vector α n)
    (i : Fin n) :
    Bank.at' (unionOf decode (carriedAll t f) v) i
      = if headFirst f ≤ i.val ∧ i.val < headFirst f + headCount f then decode (carried t f (i.val - headFirst f))
        else Bank.at' v i := by
  unfold unionOf carriedAll
  generalize headCount f = c
  induction c with
  | zero => simp
  | succ c ih =>
    rw [List.range_succ, List.map_append, List.foldl_append]
    simp only [List.map_cons, List.map_nil, List.foldl_cons, List.foldl_nil]
    split
    · rename_i h
      by_cases e : i.val = headFirst f + c
      · obtain rfl : i = ⟨headFirst f + c, h⟩ := Fin.ext e
        simp
      · have ne : i ≠ ⟨headFirst f + c, h⟩ := fun q => e (congrArg Fin.val q)
        have iff : (headFirst f ≤ i.val ∧ i.val < headFirst f + c)
            = (headFirst f ≤ i.val ∧ i.val < headFirst f + (c + 1)) := by simp only [eq_iff_iff]; omega
        simp only [Bank.at_put, if_neg ne.symm, ih, iff]
    · rename_i h
      rw [ih]; congr 1; simp; omega

end Sys2Proof.Machine
end

