-- ==== Sys2Proof/Tests/Slice0.lean ====
section
/-! SUPPORT. Tests: the checks of WellFormed, the spec's worked cases, one small step for each command, and a
witness for the hypotheses of every statement. -/

namespace Sys2Proof.Tests

open Sys2Proof Sys2Proof.Machine

/-! ## Helpers -/

/-- The state a command leaves. -/
def after (c : Instr) (s : State) : State :=
  match exec c s with
  | .next t => t
  | _ => s

/-- An axis stands in a state at a position with a velocity, its contest watching. -/
def stand (n : AxisId) (e : AxisEntry) (st : AxisState) (p v : Int) (s : State) : State :=
  { s with
    axisTable := Bank.put s.axisTable n e
    axes := Bank.put s.axes n { Ctx.initial with state := st, p := p, v := v, t := p }
    contests := Bank.put s.contests n
      (some { permission := st.permission, phase := .watching none, stuck := false }) }

/-- An axis of the worked sequences (R62 to R64). -/
def axis (drive : Nat) : AxisEntry :=
  { AxisEntry.initial with
    enabled := true, drive := drive, hi := 12000000, vmax := 2000, amax := 40, dmax := 40, dstop := 120
    crawl := 200, followTol := 20000, park := some 1000000 }

/-- The axis of the worked cases of line shaping. -/
def shaped (hi vmax : Nat) : AxisEntry :=
  { axis 1 with hi := hi, vmax := vmax, amax := 100, dmax := 100, dstop := 300 }

/-- The governor ARMED with the cadence LOCKED. -/
def armed (s : State) : State :=
  { s with
    governor := { s.governor with state := .armed, cadence := false }
    cadence := { s.cadence with
      state := .locked, lockCount := 4, lastArrival := some 141300, lapse := some 153300, paceNext := none }
    globals := { s.globals with nLock := 4 } }

/-- The governor ARMED: a rig of two in FOLLOW with profile STOP_DWELL_PARK, a lone axis in FOLLOW, one LOCKED
outside its envelope, one RELEASING, one HOLDING, one recovering, one OFFLINE. -/
def running : State :=
  let s := stand 0 (axis 1) .follow 1000000 0 <| stand 1 (axis 2) .follow 1000500 40 <|
    stand 2 (axis 3) .follow 500000 (-80) <| stand 3 (axis 4) .locked 12000900 0 <|
    stand 4 (axis 5) (.releasing .follow false) 7000 0 <| stand 5 (axis 6) (.holding 2) 0 0 <|
    stand 6 (axis 7) .recovering 12000400 (-40) State.reset
  State.drive { armed s with
    pending := [.stepStart]
    rigTable := Bank.put s.rigTable 0 { RigEntry.initial with members := [0, 1], profile := .stopDwellPark } }

/-- The state with a request at the head of U's receive FIFO. -/
def ask (o : List Byte) (s : State) : State :=
  { s with u := { s.u with
      fifo := [{ frame := { addr := 0xF0, kind := 0x20, seq := 7, payload := o }, arrival := 0 }] } }

/-- The frame of such a request. -/
def req (o : List Byte) : Frame := { addr := 0xF0, kind := 0x20, seq := 7, payload := o }

/-- The state with a frame at the head of a port's receive FIFO. -/
def hold (p : PortId) (kind seq : Byte) (o : List Byte) (arrival : Micros) (s : State) : State :=
  s.setFifo p [{ frame := { addr := 0xF0, kind := kind, seq := seq, payload := o }, arrival := arrival }]

/-- The state with a notice waiting. -/
def waiting (n : Notice) (s : State) : State := s.setNotices [n]

/-- The state with a step due. -/
def dueNow (s : State) : State := { s with engine := { s.engine with due := true } }

/-- The state with a report stored for an axis and fresh. -/
def reported (n : AxisId) (p : Int) (s : State) : State :=
  s.setCtx n { s.ctx n with fresh := true, lastReport := some { position := p, ready := true, fault := false } }

/-- The state with a line's pin and accepted level. -/
def level (l : LineId) (high : Bool) (s : State) : State := s.setLine l { pin := high, accepted := high, noted := none }

/-- The state with a receiver in a mode. -/
def mode (p : PortId) (m : RxMode) (s : State) : State := s.setRx p { (s.port p).rx with mode := m }

/-! ## WellFormed refuses -/

theorem test_wf_span : WellFormed (.receiveCharacter .u 0x55 true 0 10) = false := by decide
theorem test_wf_wait_character : WellFormed (.receiveCharacter .u 0x55 true 2250 (2 ^ 50)) = false := by decide
theorem test_wf_wait_return : WellFormed (.returnToMark .u (2 ^ 50)) = false := by decide
theorem test_wf_wait_completion : WellFormed (.stepCompletion 601) = false := by decide
theorem test_wf_wait_pin : WellFormed (.inputPinChange .stopIn true (2 ^ 50)) = false := by decide
theorem test_wf_strap : WellFormed (.inputAccepted (.adr 0)) = false := by decide
theorem test_wf_wait_false_start : WellFormed (.falseStart .u (2 ^ 50)) = false := by decide
theorem test_wf_accepts : WellFormed (.receiveCharacter .u 0x55 true 1 (2 ^ 50 - 1)) = true
    ∧ WellFormed (.stepCompletion 600) = true ∧ WellFormed (.inputAccepted (.gl 5)) = true := by decide

/-! ## The spec's own figures -/

set_option maxRecDepth 20000 in
/-- The check of R6: 0x31 to 0x39 give 0x29B1. -/
theorem test_crc_check : crcOf [0x31, 0x32, 0x33, 0x34, 0x35, 0x36, 0x37, 0x38, 0x39] = 0x29B1 := by decide

/-- The table under R79. -/
theorem test_run_out : runOut 99 100 = 0 ∧ runOut 100 100 = 0 ∧ runOut 150 100 = 50 ∧ runOut 400 100 = 600
    ∧ runOut 1000 300 = 1200 ∧ runOut 1000 100 = 4500 := by decide

/-- A lone axis advanced from a position, velocity and target: its new position and velocity. -/
def step1 (e : AxisEntry) (st : AxisState) (p v t : Int) : Int × Int × Bool :=
  let s := stand 0 e st p v State.reset
  let a := (s.setCtx 0 { s.ctx 0 with t := t }).advanced 0
  (a.p, a.v, a.lookahead)

/-- A Single Approach, steps 1, 4, 6 and 7. -/
theorem test_approach : step1 (shaped 20000000 400) .follow 1000 0 2000 = (1100, 100, false)
    ∧ step1 (shaped 20000000 400) .follow 1600 300 2000 = (1800, 200, true)
    ∧ step1 (shaped 20000000 400) .follow 1900 100 2000 = (2000, 100, false)
    ∧ step1 (shaped 20000000 400) .follow 2000 100 2000 = (2000, 0, false) := by decide

/-- A Single Approach with hi at 2,000 and a target of 2,500 (05_line_shaping.md, line 142): step 3 leaves p 1,600 and
v 300, where p + v plus the run-out of v is 2,200 and p plus the run-out is 1,900 (R85, R88; log 30). A line whose park
is hi reaches it at the speed dmax, as R91 gives, and p + v is then beyond hi. -/
theorem test_approach_at_hi : step1 { shaped 2000 400 with park := none } .follow 1300 200 2500 = (1600, 300, false)
    ∧ 1600 + 300 + runOut 300 100 = 2200 ∧ 1600 + runOut 300 100 = 1900
    ∧ step1 { shaped 2000 400 with park := some 2000, crawl := 400 } .parking 1900 100 0 = (2000, 100, false) := by
  decide

/-- The Target Moved Closer, steps a, c and e; Reversal Within One Step. -/
theorem test_reversal : step1 (shaped 20000000 400) .follow 1600 300 1700 = (1800, 200, true)
    ∧ step1 (shaped 20000000 400) .follow 1900 100 1700 = (1900, 0, false)
    ∧ step1 (shaped 20000000 400) .follow 1800 (-100) 1700 = (1700, -100, false)
    ∧ step1 (shaped 20000000 400) .follow 5000 50 4000 = (4950, -50, false) := by decide

/-- Recovering to hi, steps 1, 5 and 6. -/
theorem test_recovering : step1 { shaped 50000 400 with crawl := 200 } .recovering 50900 0 0 = (50800, -100, false)
    ∧ step1 { shaped 50000 400 with crawl := 200 } .recovering 50200 (-200) 50000 = (50100, -100, true)
    ∧ step1 { shaped 50000 400 with crawl := 200 } .recovering 50100 (-100) 50000 = (50000, -100, false) := by
  decide

/-- Two Ramps: the FAULT ramp at dstop, the NORMAL ramp at dmax. -/
theorem test_ramps : step1 (shaped 12000000 2000) (.stopping .fault) 250000 (-1000) 0 = (249300, -700, false)
    ∧ step1 (shaped 12000000 2000) (.stopping .fault) 248800 (-100) 0 = (248800, 0, false)
    ∧ step1 (shaped 12000000 2000) (.stopping .normal) 10000 900 0 = (10800, 800, false) := by decide

/-- A Proportional Rig: 399 and 250. -/
theorem test_proportional_rig :
    let s := stand 0 (shaped 20000000 400) .follow 1000 350 <|
      stand 1 { shaped 20000000 400 with drive := 2 } .follow 5000 350 State.reset
    let t := { s with rigTable := Bank.put s.rigTable 1 { RigEntry.initial with members := [0, 1] } }
    let u := (t.setCtx 0 { t.ctx 0 with t := 11000 }).setCtx 1 { t.ctx 1 with t := 10000 }
    (u.advanced 0).v = 399 ∧ (u.advanced 1).v = 250 ∧ (u.advanced 0).scaled = true := by decide

/-! ## Commands -/

/-- R175, R176: outputs low; POWER_UP latched and CLEAR_OUT high after the release. -/
theorem test_reset_assert : (after .resetNAssert running).outputs.clearOut = false
    ∧ Bank.at' (after .resetNAssert running).outputs.brk 0 = false := by decide
theorem test_reset_release : (after (.resetNRelease true true true) (after .resetNAssert running)).latch = 1
    ∧ (after (.resetNRelease true true true) (after .resetNAssert running)).outputs.clearOut = true := by decide

/-- One Receiver Through Four Frames: SYNC at 2,250 ns passes; a span above 2,340 ns counts RATE. -/
theorem test_sync : ((after (.receiveCharacter .u 0x55 true 2250 10) (mode .u (.hunt true) State.reset)).port .u).rx.mode
    = .receive [] 0xFFFF := by decide
theorem test_sync_rate :
    (after (.receiveCharacter .u 0x55 true 2341 10) (mode .u (.hunt true) State.reset)).portCount .u .rate = 1 := by
  decide

/-- A gap in RECEIVE counts SHORT, sets LINK_U and leaves HUNT with the flag set. -/
theorem test_gap_short : (after (.gap .u) (mode .u (.receive [0xF3] 0) State.reset)).portCount .u .short = 1
    ∧ ((after (.gap .u) (mode .u (.receive [0xF3] 0) State.reset)).port .u).rx.mode = .hunt true
    ∧ (after (.gap .u) (mode .u (.receive [0xF3] 0) State.reset)).hasEvent .linkU = true := by decide

/-- A long break on U counts once and trips an armed governor. -/
theorem test_long_break : (after (.longBreak .u) (mode .u (.brk false) running)).governor.causes = 0x10
    ∧ (after (.longBreak .u) (mode .u (.brk true) running)).governor.state = .armed := by decide

/-- A break of 50 µs counts BREAK. -/
theorem test_return_to_mark : (after (.returnToMark .da 200) (mode .da (.brk false) State.reset)).portCount .da .brk = 1
    ∧ ((after (.returnToMark .da 200) (mode .da (.brk false) State.reset)).port .da).rx.mode = .hunt false := by decide

/-- R3, R4: a false start restarts the measurement of idle. -/
theorem test_false_start : ((after (.falseStart .u 5) State.reset).port .u).rx.idleFrom = some 5 := by decide

/-- R4: a return to mark twenty bit times into idle ends it with no gap; one bit time later the gap came first. -/
theorem test_false_start_at_gap :
    let s := mode .u (.receive [0xF3] 0) State.reset
    (after (.falseStart .u 20) s).portCount .u .short = 0 ∧ (after (.falseStart .u 21) s).portCount .u .short = 1 := by
  decide

set_option maxRecDepth 20000 in
/-- A frame whose CRC agrees counts GOOD; one that differs counts CRC. -/
theorem test_frame_complete :
    (after (.frameComplete .u) (mode .u (.receive (req [1]).octets.tail (crcOf (req [1]).covered)) State.reset)).portCount
      .u .good = 1
    ∧ (after (.frameComplete .u) (mode .u (.receive (req [1]).octets.tail 0) State.reset)).portCount .u .crc = 1 := by
  decide

set_option maxRecDepth 20000 in
/-- R37: the status frame goes before a response. -/
theorem test_transmit_complete :
    let s := { State.reset with queues := { State.reset.queues with status := some (req [9]), responses := [req [8]] } }
    ((after (.transmitComplete .u) (s.setTx .u (some { octets := [], freeAt := 40 }))).u.tx.map Sending.octets
      = some (req [9]).octets) := by decide

/-- R52: the first expiry at 4,000 makes a step due and sets the next at 8,000. -/
theorem test_pace : (after .paceTimerExpiry State.reset).cadence.paceNext = some 8000
    ∧ (after .paceTimerExpiry State.reset).engine.due = true
    ∧ (after .paceTimerExpiry State.reset).timeBase = 4000 := by decide

/-- Lock Acquisition: the lapse at 153,300; armed, it trips with CADENCE. -/
theorem test_lapse : (after .lapseExpiry running).cadence.paceNext = some 157300
    ∧ (after .lapseExpiry running).governor.causes = 0x04
    ∧ (after .lapseExpiry running).engine.notices = [.tripEntry] := by decide

/-- A Skew Fault, Dwell and Park: step 60. -/
theorem test_skew :
    let e : AxisEntry := { axis 3 with amax := 100, dmax := 100, dstop := 300, settle := 2, park := some 1499800 }
    let s := stand 2 e .follow 1500000 600 <| stand 3 { e with drive := 4 } .follow 1520000 600 State.reset
    let f (n : AxisId) (x : Int) (s : State) : State :=
      s.setCtx n { s.ctx n with fresh := true, lastFollow := some { error := x, gseq := 59 } }
    let t := dueNow { armed (f 2 (-200) (f 3 (-5400) s)) with
      rigTable := Bank.put s.rigTable 1
        { RigEntry.initial with members := [2, 3], skewTol := 5000, profile := .stopDwellPark, dwell := 3 }
      engine := { s.engine with gseq := 59 } }
    let u := after .stepStart t
    (u.ctx 2).fault = some { cause := .rigSkew, step := 60, position := 1500000 }
      ∧ (u.ctx 3).fault = some { cause := .rigMember, step := 60, position := 1520000 }
      ∧ ((u.ctx 2).p, (u.ctx 2).v, (u.ctx 3).p) = (1500300, 300, 1520300)
      ∧ u.hasEvent (.rigFault 1) = true := by decide

/-- R38, R59: an unsent command frame is replaced and counts LATE; the ring takes the step. -/
theorem test_step_completion :
    let s := { running with
      engine := { running.engine with inFlight := some .setpoint, gseq := 88 }
      da := { running.da with tx := some { octets := [], freeAt := 9 } }
      queues := { running.queues with b0 := { running.queues.b0 with command := some (req []) } } }
    (after (.stepCompletion 400) s).count (.late .b0) = 1
      ∧ ((after (.stepCompletion 400) s).ctx 2).ring = [{ step := 88, p := 500000 }]
      ∧ (after (.stepCompletion 400) s).engine.inFlight = none := by decide

/-- Lock Acquisition, 125,310: SEQ 17 after 15 counts SEQ_GAP and completes the lock. -/
theorem test_setpoint :
    let s := { State.reset with
      cadence := { State.reset.cadence with state := .locking, lockCount := 3, lastArrival := some 121290 }
      engine := { State.reset.engine with lastSeq := some 15 }
      globals := { Globals.initial with nLock := 4 } }
    let t := after .takeSetpoint (hold .u 0x10 17 [1, 0, 0, 0, 0, 0] 125310 s)
    t.count .seqGap = 1 ∧ t.cadence.state = .locked ∧ t.cadence.lapse = some 137310
      ∧ t.cadence.paceNext = none := by decide

/-- Lock Acquisition, 117,360: the resent SEQ 14 counts DUPLICATE. -/
theorem test_setpoint_again :
    (after .takeSetpoint (hold .u 0x10 14 [1, 0, 0, 0, 0, 0] 117360
      { State.reset with engine := { State.reset.engine with lastSeq := some 14 } })).count .duplicate = 1 := by decide

/-- The running state, where both members of rig 0 reach their report lapse at the next step start. -/
def bothLapsing : State :=
  let f (n : AxisId) (s : State) : State := s.setCtx n { s.ctx n with lapse := 2 }
  dueNow (f 0 (f 1 running))
/-- R57: the step counts on; a lone axis advances with no report lapsed. R135, the spec's example: of two members that
lapse the lower-indexed stops the rig, the other records REPORT_LOST as a later cause, and the governor does not trip. -/
theorem test_step_start :
    let t := after .stepStart bothLapsing
    t.engine.gseq = 1 ∧ (t.ctx 2).lapse = 1 ∧ (t.ctx 5).state = .holding 1 ∧ (t.ctx 0).fault.map FaultRecord.cause = some .reportLost
      ∧ (t.ctx 1).fault.map FaultRecord.cause = some .rigMember ∧ (t.ctx 1).later = 2
      ∧ t.governor.state = .armed ∧ t.hasEvent (.rigFault 0) = true := by decide

/-- Echo delay: echo 87 with delay 2 is judged against step 85; a stray echo counts STALE. -/
def lagging : State :=
  stand 5 { axis 0x15 with echoDelay := 2 } .follow 102800 400 (armed State.reset)
theorem test_report : (let s := lagging.setCtx 5 { lagging.ctx 5 with ring := [{ step := 85, p := 102000 }, { step := 86, p := 102400 }] }
    ((after .takeReport (hold .da 0x12 87 ([0x15] ++ putS32 101500 ++ [1]) 0 s)).ctx 5).lastFollow
      = some { error := -500, gseq := 0 })
    ∧ (after .takeReport (hold .da 0x12 60 ([0x15] ++ putS32 102320 ++ [1]) 0 lagging)).count .stale = 1 := by
  decide

/-- R135: FAULT and a following error of 1,000 µs in one report stop the line once, DRIVE_FAULT first. -/
theorem test_report_two_causes :
    let s := stand 5 { axis 0x15 with followTol := 500 } .follow 102800 400 (armed State.reset)
    let u := s.setCtx 5 { s.ctx 5 with ring := [{ step := 86, p := 102000 }] }
    let t := after .takeReport (hold .da 0x12 87 ([0x15] ++ putS32 101000 ++ [3]) 0
      { u with axisTable := Bank.put u.axisTable 5 { u.entry 5 with echoDelay := 1 } })
    (t.ctx 5).state = .stopping .fault ∧ (t.ctx 5).fault.map FaultRecord.cause = some .driveFault
      ∧ (t.ctx 5).later = 1 ∧ t.governor.state = .armed := by decide

/-- R68: the entry as it stands. -/
theorem test_read_table :
    (after .readTable (ask [1, 2, 0, 1] State.reset)).u.tx.map (fun x => x.octets.getD 6 0) = some 0 := by decide

/-- A Block Write Refused at Entry 3: dstop 250 below dmax 300 is field 9. R71: with rigs 0 and 1 carried as [1] and
[9], entry 0 passes and entry 1 fails at field 1. -/
theorem test_write_refused :
    let rig (m : Byte) := [1, m, 0, 0, 0, 1, 100, 0, 0, 0, 0, 1, 0]
    firstFailing (axisFieldChecks { axis 0x15 with dmax := 300, dstop := 250 }.encode) = some 9
      ∧ (stand 1 (axis 2) .standby 0 0 State.reset).judgeWrite .rig (req ([2, 1, 0, 2] ++ rig 1 ++ rig 9))
        = .badValue 1 1 := by decide
theorem test_write_table :
    let t := after .writeTable (ask ([2, 0, 2, 1] ++ { axis 0x14 with branch := .b1 }.encode) State.reset)
    (t.ctx 2).state = .standby ∧ (t.entry 2).drive = 0x14 := by decide

/-- A governor that ARM accepts. -/
def armable : State :=
  reported 0 2000040 { stand 0 (axis 1) .standby 2000000 0 State.reset with
    cadence := (armed State.reset).cadence, governor := { State.reset.governor with cadence := false } }

/-- R103: the axis is LOCKED at its last report; R151: without a report ARM is refused. -/
theorem test_arm : (after .arm (ask [3] armable)).governor.state = .armed
    ∧ ((after .arm (ask [3] armable)).ctx 0).state = .locked
    ∧ ((after .arm (ask [3] armable)).ctx 0).p = 2000040 := by decide
theorem test_arm_refused : (after .arm (ask [3] running)).governor = running.governor := by decide

/-- A governor ARMED with one LOCKED axis, ready to be released. -/
def releasable : State := reported 0 2000040 (stand 0 (axis 1) .locked 2000000 0 (armed State.reset))

/-- The same governor TRIPPED with one latched cause. -/
def tripped : State := { releasable with governor := { releasable.governor with state := .tripped, causes := 0x20 } }

/-- R155, R104. -/
theorem test_disarm : (after .disarm (ask [4] releasable)).governor.state = .safe
    ∧ ((after .disarm (ask [4] releasable)).ctx 0).state = .standby := by decide
/-- R153. -/
theorem test_stop_all : (after .stopAll (ask [5] running)).governor.causes = 0x20
    ∧ (after .stopAll (ask [5] running)).hasEvent .trip = true := by decide
/-- R154: a latched cause is removed; an active one refuses. -/
theorem test_reset_trip : (after .resetTrip (ask [6] tripped)).governor.state = .armed
    ∧ (after .resetTrip (ask [6] { tripped with governor := { tripped.governor with causes := 0x21 } })).governor.state
      = .tripped := by decide
/-- Arming and Releasing: RELEASING at the last report, open clear while the brake is engaged. -/
theorem test_release : ((after .release (ask [7, 0, 0] releasable)).ctx 0).state = .releasing .follow false
    ∧ ((after .release (ask [7, 0, 0] releasable)).ctx 0).p = 2000040 := by decide
theorem test_release_open : ((after .release (ask [7, 0, 0] (level (.sns 0) true releasable))).ctx 0).state = .follow := by
  decide
/-- R111: a rig in FOLLOW takes a NORMAL ramp as a whole; a member alone is WRONG_TARGET. -/
theorem test_lock : ((after .lock (ask [8, 1, 0] running)).ctx 0).state = .stopping .normal
    ∧ ((after .lock (ask [8, 1, 0] running)).ctx 1).state = .stopping .normal
    ∧ ((after .lock (ask [8, 0, 0] running)).ctx 0).state = .follow := by decide
/-- R122. -/
theorem test_recover : ((after .recover (ask [9, 3] (reported 3 12000900 running))).ctx 3).state
    = .releasing .recovering false := by decide
/-- R183: the named flag is cleared; a mask beyond flag 21 clears nothing. -/
theorem test_ack : (after .ackEvents (ask [10, 1, 0, 0] State.reset)).latch = 0
    ∧ (after .ackEvents (ask [10, 1, 0, 0x40] State.reset)).latch = 1 := by decide
/-- R174: STOP_IN is the 25th record: driven none, sensed high, not active. -/
theorem test_read_lines : LineId.all.length = 36 ∧ State.reset.lineRecord .stopIn = [6]
    ∧ (after .readLines (ask [11] State.reset)).u.tx.map (fun x => x.octets.length) = some 47 := by decide
/-- R185. -/
theorem test_read_counters : (after .readCounters (ask [12, 3, 1] (State.reset.bump .jitter))).count .jitter = 0 := by
  decide
/-- R22: DA is refused while not SAFE; U starts anew. -/
theorem test_port_reset : (after (.portReset true) (ask [13, 0] (State.reset.bumpPort .u .rate))).portCount .u .rate = 0
    ∧ (after (.portReset true) (ask [13, 1] (running.bumpPort .da .rate))).portCount .da .rate = 1 := by decide
set_option maxRecDepth 20000 in
/-- R178: an unknown code is BAD_REQUEST. -/
theorem test_unknown : (after .unknownRequest (ask [14] State.reset)).u.tx.map (fun x => x.octets.drop 5)
    = some (responseFrame (req [14]) (reply .badRequest)).octets.tail.tail.tail.tail.tail := by decide

/-- R108: the lone axis opens. -/
theorem test_sense : ((after .senseNotice (waiting (.line (.sns 4) true true) running)).ctx 4).state = .follow := by
  decide
/-- R164: EOT stops a lone axis in FOLLOW, and does nothing without the activated flag. -/
theorem test_eot : ((after .eotNotice (waiting (.line (.eot 2) true true) running)).ctx 2).state = .stopping .fault
    ∧ ((after .eotNotice (waiting (.line (.eot 2) false false) running)).ctx 2).state = .follow := by decide
/-- R159. -/
theorem test_stop_clear : (after .stopClearNotice (waiting (.line .stopIn true true) running)) = running.setNotices [] := by
  decide

/-- A general line with a function for rig 0. -/
def general (fn : LineFn) (s : State) : State :=
  { s with lineTable := Bank.put s.lineTable 0 { LineEntry.initial with fn := fn } }

/-- R172: an output with invert set is driven low while its condition holds and high while it is false; an input is
not driven. -/
theorem test_general_outputs :
    let s (fn : LineFn) := (general fn running).drive
    let i (fn : LineFn) := ({ running with
      lineTable := Bank.put running.lineTable 0 { LineEntry.initial with fn := fn, invert := true } } : State).drive
    Bank.at' (s .readyOut).outputs.gl 0 = some true ∧ Bank.at' (i .readyOut).outputs.gl 0 = some false
      ∧ Bank.at' (i .tripOut).outputs.gl 0 = some true ∧ Bank.at' (s .eventOut).outputs.gl 0 = some true
      ∧ Bank.at' (s .armKeyIn).outputs.gl 0 = none := by decide

/-- R140: the lead takes RIG_HOLD, the other member RIG_MEMBER. -/
theorem test_rig_hold :
    let t := after .rigHoldNotice (waiting (.line (.gl 0) true true) (general .rigHoldIn running))
    (t.ctx 0).state = .stopping .fault ∧ (t.ctx 1).fault.map FaultRecord.cause = some .rigMember := by decide
/-- R163. -/
theorem test_arm_key : (after .armKeyNotice (waiting (.line (.gl 0) true true) (general .armKeyIn running))).axes
    = running.axes := by decide
/-- R167: BRAKE_NOT_OPEN takes a releasing axis to LOCKED. -/
theorem test_brake_contest : ((after .brakeContestNotice (waiting (.contest 4) running)).ctx 4).state = .locked := by
  decide
/-- R124. -/
theorem test_trip_entry : ((after .tripEntry (waiting .tripEntry running)).ctx 0).state = .stopping .fault
    ∧ ((after .tripEntry (waiting .tripEntry running)).ctx 4).state = .locked
    ∧ ((after .tripEntry (waiting .tripEntry running)).ctx 5).state = .holding 2 := by decide
/-- R160: STOP_IN low is noted, accepted after 2 ms, and trips. -/
theorem test_pin_change : ((after (.inputPinChange .stopIn false 40) running).line .stopIn).noted = some 10 := by decide
theorem test_input_accepted :
    let t := after (.inputAccepted .stopIn) (after (.inputPinChange .stopIn false 40) running)
    t.governor.causes = 1 ∧ t.timeBase = 2010 ∧ t.engine.notices = [.tripEntry, .line .stopIn true true] := by decide
/-- R160: a change that stands exactly the filter time is accepted though the pin returns at that moment; one bit time
less and it is dropped. -/
theorem test_pin_return :
    let s := after (.inputPinChange .stopIn false 40) running
    (after (.inputPinChange .stopIn true 8000) s).governor.causes = 1
      ∧ (after (.inputPinChange .stopIn true 8000) s).filtered .stopIn = true
      ∧ (after (.inputPinChange .stopIn true 7999) s).governor.causes = 0 := by decide
/-- R167, R168: a disagreement places a notice with permission on, sets stuck with permission off. -/
theorem test_settle :
    let s (n : AxisId) (b sense : Bool) := level (.sns n) sense (running.setContest n
      (some { permission := b, phase := .settling 200, stuck := false }))
    (after (.settleExpiry 4) (s 4 true false)).engine.notices = [.contest 4]
      ∧ (after (.settleExpiry 3) (s 3 false true)).governor.causes = 0x08
      ∧ (after (.settleExpiry 4) (s 4 true true)).engine.notices = [] := by decide
theorem test_mismatch :
    (after (.mismatchExpiry 4) (running.setContest 4
      (some { permission := true, phase := .watching (some 9), stuck := false }))).engine.notices = [.contest 4] := by
  decide

/-! ## The laws on the running state -/

theorem running_steps : ∃ t, step running = .next t := ⟨_, rfl⟩
theorem running_outputs : running.OutputsFollow := rfl
theorem running_modes : running.ModesLaw := by unfold State.ModesLaw; decide
theorem running_enabled : running.EnabledLaw := by unfold State.EnabledLaw; decide
set_option maxRecDepth 20000 in
theorem running_tables : running.TablesLaw :=
  ⟨by unfold AxisEntry.Valid; decide, by unfold RigEntry.Valid; decide, by unfold Globals.Valid; decide,
    by unfold LineEntry.Valid; decide, by decide, by decide, by decide⟩
theorem running_lines : running.LinesLaw := by
  intro l; cases l with
  | brk n => revert n; decide
  | sns n => revert n; decide
  | eot n => revert n; decide
  | adr k => revert k; decide
  | gl k => revert k; decide
  | _ => decide
theorem running_contests : running.ContestsLaw := by unfold State.ContestsLaw; decide
theorem running_flags : running.FlagsLaw := by unfold State.FlagsLaw; decide
theorem running_causes : running.CausesLaw := by
  show running.governor.causes = 0 ∧ running.governor.activeCauses = 0; decide
theorem running_cadence : running.CadenceLaw := by unfold State.CadenceLaw; decide
theorem running_queues : running.QueuesLaw :=
  ⟨by intro p; cases p <;> decide, by decide, by decide, by intro b; cases b <;> decide,
    by intro _ b; cases b <;> decide, by decide, by intro _ p b; cases p <;> cases b <;> decide⟩
theorem running_notices : running.NoticesLaw := by unfold State.NoticesLaw; decide
theorem running_rings : running.RingsLaw := by unfold State.RingsLaw; decide
theorem running_motions : running.MotionsLaw := by
  intro n
  match n with
  | 0 => show Ctx.inside _ _ ∧ _; unfold Ctx.inside; decide
  | 1 => show Ctx.inside _ _ ∧ _; unfold Ctx.inside; decide
  | 2 => show Ctx.inside _ _ ∧ _; unfold Ctx.inside; decide
  | 3 => show (running.ctx 3).v = 0; decide
  | 4 => show Ctx.inside _ _ ∧ _; unfold Ctx.inside; decide
  | 5 => show (Ctx.inside _ _ ∨ Ctx.outside _ _) ∧ _; unfold Ctx.inside Ctx.outside; decide
  | 6 => show Ctx.outside _ _ ∧ _; unfold Ctx.outside; decide
  | 7 => show True; trivial
theorem running_rigs : running.RigsLaw := by unfold State.RigsLaw; decide

theorem reset_queues : State.reset.QueuesLaw :=
  ⟨by intro p; cases p <;> decide, by decide, by decide, by intro b; cases b <;> decide,
    by intro _ b; cases b <;> decide, by decide, by intro _ p b; cases p <;> cases b <;> decide⟩

theorem releasable_queues : releasable.QueuesLaw :=
  ⟨by intro p; cases p <;> decide, by decide, by decide, by intro b; cases b <;> decide,
    by intro _ b; cases b <;> decide, by decide, by intro _ p b; cases p <;> cases b <;> decide⟩

theorem tripped_queues : tripped.QueuesLaw :=
  ⟨by intro p; cases p <;> decide, by decide, by decide, by intro b; cases b <;> decide,
    by intro _ b; cases b <;> decide, by decide, by intro _ p b; cases p <;> cases b <;> decide⟩

/-- A frame put at the head of an empty FIFO keeps the law of the queues. -/
theorem queues_hold {s : State} (h : s.QueuesLaw) (p : PortId) (k q : Byte) (o : List Byte) (a : Micros) :
    (hold p k q o a s).QueuesLaw := by
  obtain ⟨h1, h2, h3, h4, h5, h6, h7⟩ := h
  have g := h1 .u; have d := h1 .da; have b := h1 .db
  cases p <;> exact ⟨by intro r; cases r <;> first | exact g | exact d | exact b | (show (1 : Nat) ≤ 4; decide),
    h2, h3, h4, h5, h6, fun e r c m f => h7 e r c m (by cases r <;> exact f)⟩
theorem queues_ask {s : State} (h : s.QueuesLaw) (o : List Byte) : (ask o s).QueuesLaw := queues_hold h .u 0x20 7 o 0

/-! ## Witnesses: the machine, encodings and laws -/

theorem witness_StepTakesTheFrontCommand : running.pending = [.stepStart] ∧ State.reset.pending = [] := by decide

set_option maxRecDepth 20000 in
theorem witness_SentFramesAreReadBack : (List.replicate 192 (0x55 : Byte)).length ≤ 192 ∧ (req []).payload.length ≤ 192 := by
  decide

set_option maxRecDepth 20000 in
/-- Entries at the ends of their ranges. -/
theorem witness_TableEntriesRoundTrip :
    ({ axis 62 with hi := 60000000, vmax := 65535, amax := 4095, dmax := 4095, dstop := 4095, park := some 60000000 }
        : AxisEntry).Valid
      ∧ AxisEntry.initial.Valid
      ∧ ({ RigEntry.initial with members := [7, 0, 3, 5], skewTol := 500000, dwell := 4095 } : RigEntry).Valid
      ∧ ({ Globals.initial with P := 10000, W := 20, nLock := 64, L := 8, tb := 1000 } : Globals).Valid
      ∧ ({ fn := .motionOut, arg := 3, invert := true, filter := 31 } : LineEntry).Valid :=
  ⟨by unfold AxisEntry.Valid; decide, by unfold AxisEntry.Valid; decide, by unfold RigEntry.Valid; decide,
    by unfold Globals.Valid; decide, by unfold LineEntry.Valid; decide⟩

theorem witness_OutputsFollowKept : running.OutputsFollow ∧ ∃ t, step running = .next t :=
  ⟨running_outputs, running_steps⟩
theorem witness_ModesLawKept : running.ModesLaw ∧ ∃ t, step running = .next t := ⟨running_modes, running_steps⟩
theorem witness_EnabledLawKept : running.EnabledLaw ∧ ∃ t, step running = .next t := ⟨running_enabled, running_steps⟩
theorem witness_TablesLawKept : running.TablesLaw ∧ ∃ t, step running = .next t := ⟨running_tables, running_steps⟩
theorem witness_LinesAndContestsLawKept : running.LinesLaw ∧ running.ContestsLaw ∧ ∃ t, step running = .next t :=
  ⟨running_lines, running_contests, running_steps⟩
theorem witness_FlagsAndCausesLawKept : running.EnabledLaw ∧ running.ContestsLaw ∧ running.FlagsLaw ∧ running.CausesLaw
    ∧ ∃ t, step running = .next t :=
  ⟨running_enabled, running_contests, running_flags, running_causes, running_steps⟩
/-- A governor TRIPPED whose trip entry has been taken, and one where it waits. -/
theorem witness_AfterTripLawKept : tripped.AfterTripLaw ∧ tripped.governor.state = .tripped
    ∧ Notice.tripEntry ∉ tripped.engine.notices ∧ ∃ t, step tripped = .next t :=
  ⟨by unfold State.AfterTripLaw; decide, by decide, by decide, _, rfl⟩
theorem witness_CadenceLawKept : running.CadenceLaw ∧ ∃ t, step running = .next t := ⟨running_cadence, running_steps⟩
theorem witness_QueuesLawKept : running.QueuesLaw ∧ ∃ t, step running = .next t := ⟨running_queues, running_steps⟩
theorem witness_NoticesLawKept : (waiting (.line .stopIn true true) running).NoticesLaw
    ∧ ∃ t, step (waiting (.line .stopIn true true) running) = .next t :=
  ⟨by unfold State.NoticesLaw; decide, _, rfl⟩
/-- A ring of two pairs, at the wrap of the step numbers. -/
theorem witness_RingsLawKept :
    let s := running.setCtx 2 { running.ctx 2 with ring := [{ step := 255, p := 1 }, { step := 0, p := 2 }] }
    s.EnabledLaw ∧ s.RingsLaw ∧ ∃ t, step s = .next t :=
  ⟨by unfold State.EnabledLaw; decide, by unfold State.RingsLaw; decide, _, rfl⟩
theorem witness_MotionsLawKept : running.TablesLaw ∧ running.ModesLaw ∧ running.MotionsLaw
    ∧ ∃ t, step running = .next t := ⟨running_tables, running_modes, running_motions, running_steps⟩
theorem witness_RigsLawKept : running.TablesLaw ∧ running.ModesLaw ∧ running.RigsLaw
    ∧ (∃ n ∈ (running.rig 0).members, (running.ctx n).state = .follow) ∧ ∃ t, step running = .next t :=
  ⟨running_tables, running_modes, running_rigs, by decide, running_steps⟩
theorem witness_BrakeOutputsNeedPermission : running.OutputsFollow ∧ running.ModesLaw
    ∧ Bank.at' running.outputs.brk 0 = true := ⟨running_outputs, running_modes, by decide⟩
/-- The position and velocity before step 3 of A Single Approach, with hi at the target. -/
theorem witness_ReserveAsR88WritesItIsKept :
    let e := shaped 2000 400
    let x : Ctx := { Ctx.initial with state := .follow, p := 1300, v := 200, t := 2000 }
    { e with park := none }.Valid ∧ x.inside e ∧ x.v.natAbs ≤ e.vmax
      ∧ (0 ≤ x.v → x.p + x.v + runOut x.v.toNat e.dmax ≤ e.hi) ∧ 0 ≤ (shapeFollow e none x).v :=
  ⟨by unfold AxisEntry.Valid; decide, by unfold Ctx.inside; decide, by decide, by decide, by decide⟩

/-! ## Witnesses: rules over all commands -/

theorem witness_GovernorTransitions :
    ((ask [3] armable).FlagsLaw ∧ (ask [5] running).FlagsLaw ∧ (ask [6] tripped).FlagsLaw
        ∧ (ask [4] releasable).FlagsLaw)
      ∧ (exec .arm (ask [3] armable) = .next (after .arm (ask [3] armable))
        ∧ (after .arm (ask [3] armable)).governor.state ≠ armable.governor.state)
      ∧ (exec .stopAll (ask [5] running) = .next (after .stopAll (ask [5] running))
        ∧ (after .stopAll (ask [5] running)).governor.state ≠ running.governor.state)
      ∧ (exec .resetTrip (ask [6] tripped) = .next (after .resetTrip (ask [6] tripped))
        ∧ (after .resetTrip (ask [6] tripped)).governor.state ≠ tripped.governor.state)
      ∧ (exec .disarm (ask [4] releasable) = .next (after .disarm (ask [4] releasable))
        ∧ (after .disarm (ask [4] releasable)).governor.state ≠ releasable.governor.state) :=
  ⟨by unfold State.FlagsLaw; decide, ⟨rfl, by decide⟩, ⟨rfl, by decide⟩, ⟨rfl, by decide⟩, ⟨rfl, by decide⟩⟩
theorem witness_FlagsAndCountsAreKept : exec (.gap .u) running = .next (after (.gap .u) running)
    ∧ Instr.gap .u ≠ .resetNAssert ∧ (∀ u a b, Instr.gap .u ≠ .resetNRelease u a b) ∧ Instr.gap .u ≠ .ackEvents
    ∧ Instr.gap .u ≠ .readCounters ∧ (∀ m, Instr.gap .u ≠ .portReset m) ∧ State.reset.hasEvent .powerUp = true :=
  ⟨rfl, by decide, by decide, by decide, by decide, by decide, by decide⟩
theorem witness_OnlyTheEngineChangesContexts :
    (running.engine.inFlight = none ∧ exec .lapseExpiry running = .next (after .lapseExpiry running))
      ∧ (after .stepStart (dueNow running)).engine.inFlight ≠ none
      ∧ exec .arm (after .stepStart (dueNow running)) = .next (after .arm (after .stepStart (dueNow running))) :=
  ⟨⟨by decide, rfl⟩, by decide, rfl⟩
theorem witness_WhatOneCommandAloneChanges : (ask [2] running).LinesLaw ∧ exec .writeTable (ask [2] running) = .next (after .writeTable (ask [2] running))
    ∧ Instr.writeTable ≠ .stepStart ∧ Instr.stepStart ≠ .writeTable := ⟨running_lines, rfl, by decide, by decide⟩
theorem witness_ResetLineActs : (after .resetNAssert running).resetLow = true ∧ running.resetLow = false := by decide

/-! ## Witnesses: the cue link -/

/-- No gap is due before twenty bit times of idle (R4). -/
theorem gap_not_due {s : State} {p : PortId} {i e : Ticks} (h : (s.port p).rx.idleFrom = some i)
    (g : reached (i + 20) e = false) : s.gapNotDue p e := by
  intro t ht
  rw [h] at ht
  cases ht
  exact g

/-- A gap is due at twenty bit times of idle (R4). -/
theorem gap_due {s : State} {p : PortId} {i e : Ticks} (h : (s.port p).rx.idleFrom = some i)
    (g : reached (i + 20) e = true) : ¬ s.gapNotDue p e := fun n => by
  have := n i h
  rw [g] at this
  cases this

set_option maxRecDepth 20000 in
/-- Both values of the gap-seen flag, with no gap due, due just not yet, and overdue; the span at both ends of the
rate check and beyond is free. -/
theorem witness_CharacterInHunt :
    (State.reset.resetLow = false ∧ (State.reset.port .u).rx.mode = .hunt false
        ∧ (State.reset.port .u).rx.heldSpace = false)
      ∧ ((mode .u (.hunt true) State.reset).port .u).rx.mode = .hunt true
      ∧ State.reset.gapNotDue .u (State.reset.clock + BitVec.ofNat 50 29 - 10)
      ∧ (mode .u (.hunt true) State.reset).gapNotDue .u (State.reset.clock + BitVec.ofNat 50 10 - 10)
      ∧ ¬ State.reset.gapNotDue .u (State.reset.clock + BitVec.ofNat 50 30 - 10) :=
  ⟨by decide, by decide, gap_not_due (i := 0) (by decide) (by decide), gap_not_due (i := 0) (by decide) (by decide),
    gap_due (i := 0) (by decide) (by decide)⟩

set_option maxRecDepth 20000 in
/-- No octet yet, a LEN to come, and one CRC octet still missing; DISCARD; BREAK; an overdue gap. -/
theorem witness_CharacterInFrame :
    let s (m : RxMode) := mode .da m State.reset
    ((s .discard).resetLow = false ∧ ((s .discard).port .da).rx.heldSpace = false
        ∧ (s .discard).gapNotDue .da (0 + BitVec.ofNat 50 10 - 10))
      ∧ (((s .discard).port .da).rx.listens = true ∧ ¬ (s .discard).gapNotDue .da (0 + BitVec.ofNat 50 30 - 10))
      ∧ ((s (.receive [] 0xFFFF)).port .da).rx.mode = .receive [] 0xFFFF ∧ frameWhole [] = false
      ∧ ((s (.receive [1, 2, 3] 0)).port .da).rx.mode = .receive [1, 2, 3] 0 ∧ frameWhole [1, 2, 3] = false
      ∧ ((s (.receive [1, 2, 3, 0, 9] 0)).port .da).rx.mode = .receive [1, 2, 3, 0, 9] 0
      ∧ frameWhole [1, 2, 3, 0, 9] = false
      ∧ ((s .discard).port .da).rx.mode = .discard ∧ ((s (.brk true)).port .da).rx.mode = .brk true :=
  ⟨⟨by decide, by decide, gap_not_due (i := 0) (by decide) (by decide)⟩,
    ⟨by decide, gap_due (i := 0) (by decide) (by decide)⟩, by decide⟩

set_option maxRecDepth 20000 in
theorem witness_GapsAndFalseStarts :
    let s (m : RxMode) := mode .u m State.reset
    (∀ m ∈ [RxMode.hunt false, .receive [1] 0, .discard], (s m).resetLow = false
        ∧ ((s m).port .u).rx.idleFrom = some 0 ∧ ((s m).port .u).rx.heldSpace = false
        ∧ ((s m).port .u).rx.mode.inBreak = false ∧ ((s m).port .u).rx.mode.awaitsJudgement = false
        ∧ ((s m).port .u).rx.listens = true)
      ∧ ((after (.gap .u) State.reset).port .u).rx.idleFrom = none
      ∧ State.reset.gapNotDue .u (State.reset.clock + BitVec.ofNat 50 20 - 1)
      ∧ ¬ State.reset.gapNotDue .u (State.reset.clock + BitVec.ofNat 50 21 - 1) :=
  ⟨by decide, by decide, gap_not_due (i := 0) (by decide) (by decide), gap_due (i := 0) (by decide) (by decide)⟩

/-- A break just short of, at and beyond 80 µs; one already counted; a line at space since a reset. -/
theorem witness_BreaksAndReturns :
    let s := mode .u (.brk false) running
    let held := (Bank.all 3 ()).toList.foldl (fun x _ => x) (State.released restPins false true true [])
    (s.resetLow = false ∧ (s.port .u).rx.mode = .brk false)
      ∧ ((mode .u (.brk true) running).port .u).rx.mode = .brk true
      ∧ reached ((s.port .u).rx.lastEdge + 320) (s.clock + BitVec.ofNat 50 319) = false
      ∧ s.clock + BitVec.ofNat 50 320 = (s.port .u).rx.lastEdge + 320
      ∧ (reached ((s.port .u).rx.lastEdge + 320) (s.clock + BitVec.ofNat 50 321) = true
        ∧ s.clock + BitVec.ofNat 50 321 ≠ (s.port .u).rx.lastEdge + 320)
      ∧ (held.port .u).rx.heldSpace = true ∧ (held.port .u).rx.mode.inBreak = false := by decide

set_option maxRecDepth 20000 in
/-- A whole frame whose CRC differs, and one whose CRC agrees with the FIFO empty, with three frames and full; frames
for every verdict as a new head. -/
theorem witness_FrameCompletion :
    let f := req [11]
    let s (crc : BitVec 16) := mode .u (.receive f.octets.tail crc) State.reset
    let good := s (crcOf f.covered)
    let r : Received := { frame := f, arrival := 0 }
    (good.resetLow = false ∧ (good.port .u).rx.mode = .receive f.octets.tail (crcOf f.covered)
        ∧ frameWhole f.octets.tail = true)
      ∧ (crcOf f.covered).toNat = crcReceived f.octets.tail ∧ (0 : BitVec 16).toNat ≠ crcReceived f.octets.tail
      ∧ (good.port .u).fifo = [] ∧ good.judgeHead .u (frameOf f.octets.tail) = .engine
      ∧ good.judgeHead .u { f with kind := 0x21 } ≠ .engine
      ∧ ((good.setFifo .u [r, r, r]).port .u).fifo.length = 3
      ∧ 4 ≤ ((good.setFifo .u [r, r, r, r]).port .u).fifo.length
      ∧ (let w (p : PortId) (addr : Byte) : Verdict :=
          let g : Frame := { f with addr := addr, kind := 0x31 };
          (stand 2 (axis 3) .standby 0 0 State.reset).judgeHead p (frameOf g.octets.tail);
        w .u 9 = .unrouted ∧ w .da 0 = .forward ∧ w .u 3 = .passthrough .b0) := by decide

theorem witness_TransmitCompletion :
    let x : Sending := { octets := [], freeAt := 40 }
    (State.reset.setTx .u (some x)).resetLow = false ∧ ((State.reset.setTx .u (some x)).port .u).tx = some x
      ∧ ((State.reset.setTx .db (some x)).port .db).tx = some x
      ∧ branchOn State.reset.router.mapping .db = some .b1 := by decide

/-- Every verdict on a lone head frame, at both ends of a queue's room, with a free and a busy transmitter. -/
theorem witness_RoutingFromTheHead :
    let f (addr : Byte) : Frame := { addr := addr, kind := 0x31, seq := 0, payload := [] }
    let s (addr : Byte) : State := State.reset.setFifo .da [{ frame := f addr, arrival := 0 }]
    let full := List.replicate 4 (f 1)
    (f 0xF0).addr = State.reset.station ∧ (f 3).addr ≠ running.station ∧ (running.entry 2).drive = (f 3).addr.toNat
      ∧ (∀ n, (running.entry n).drive ≠ 0 → (running.entry n).drive ≠ (f 9).addr.toNat)
      ∧ (s 0xF0).judgeHead .da (f 0xF0) = .unrouted ∧ (s 0).judgeHead .da (f 0) = .forward
      ∧ running.judgeHead .u (f 3) = .passthrough .b0 ∧ running.governor.state ≠ .safe
      ∧ (stand 2 (axis 3) .standby 0 0 State.reset).judgeHead .u (f 3) = .passthrough .b0
      ∧ State.reset.governor.state = .safe
      ∧ ({ State.reset with queues := { State.reset.queues with forward := full } } : State).queues.forward.length = 4
      ∧ ({ State.reset with queues := { State.reset.queues with forward := full.tail } } : State).queues.forward.length = 3
      ∧ State.reset.u.tx = none ∧ (State.reset.port (portOf State.reset.router.mapping .b0)).tx = none
      ∧ (State.reset.setTx .u (some { octets := [], freeAt := 1 })).u.tx ≠ none
      ∧ ((State.reset.setTx .da (some { octets := [], freeAt := 1 })).port
          (portOf State.reset.router.mapping .b0)).tx ≠ none := by
  decide

/-! ## Witnesses: cadence, steps and reports -/

theorem witness_TimerExpiries :
    (State.reset.resetLow = false ∧ State.reset.cadence.paceNext = some 4000)
      ∧ running.cadence.paceNext = none
      ∧ (running.resetLow = false ∧ running.cadence.state = .locked ∧ running.cadence.lapse = some 153300
        ∧ running.governor.cadence = false)
      ∧ State.reset.cadence.state ≠ .locked := by decide

/-- Each state; intervals at and beyond both ends of the window; counts at both sides of N_lock and J. -/
theorem witness_CadenceJudgement :
    let g := running.globals
    (State.reset.cadence.state = .unlocked ∧ State.reset.governor.cadence = true)
      ∧ (running.cadence.state = .locked ∧ running.governor.cadence = false
        ∧ running.cadence.lastArrival = some 141300)
      ∧ (let s := { State.reset with cadence := { State.reset.cadence with
            state := .locking, lockCount := 15, lastArrival := some 100 } };
          s.cadence.state = .locking ∧ s.governor.cadence = true ∧ s.globals.nLock ≤ s.cadence.lockCount + 1)
      ∧ (g.P ≤ (145500 - 141300 : Micros).toNat + g.W ∧ (145500 - 141300 : Micros).toNat ≤ g.P + g.W)
      ∧ ¬ ((145501 - 141300 : Micros).toNat ≤ g.P + g.W) ∧ ¬ (g.P ≤ (145099 - 141300 : Micros).toNat + g.W)
      ∧ running.cadence.missCount + 1 < g.J ∧ g.J ≤ 2 + 1 := by decide

theorem witness_SetpointTaken :
    let s := hold .u 0x10 17 [1, 2, 0, 0, 0, 0] 0 running
    let r : Received := { frame := { addr := 0xF0, kind := 0x10, seq := 17, payload := [1, 2, 0, 0, 0, 0] }, arrival := 0 }
    (s.resetLow = false ∧ s.arbiter = some (.console r) ∧ setpointForm r.frame.payload = true
        ∧ s.engine.lastSeq ≠ some r.frame.seq ∧ (s.ctx 2).state = .follow ∧ (s.ctx 3).state ≠ .follow)
      ∧ setpointForm [] = false
      ∧ (let d := { s with engine := { s.engine with lastSeq := some 17 } };
          d.arbiter = some (.console r) ∧ d.engine.lastSeq = some r.frame.seq) := by decide

/-- The running state, where the report of one lone axis lapses at the next step start. -/
def lapsing : State := dueNow (running.setCtx 2 { running.ctx 2 with lapse := 2 })

/-- The running state, where rig 0 is skewed at the next step start. -/
def skewing : State :=
  let f (n : AxisId) (e : Int) (s : State) : State :=
    s.setCtx n { s.ctx n with fresh := true, lastFollow := some { error := e, gseq := 0 } }
  dueNow (f 0 0 (f 1 101 running))

/-- A quiet step; a step at which exactly one report lapses; a step at which exactly one rig is skewed. -/
theorem witness_StepStart :
    let lapses (s : State) (n : AxisId) : Bool := (s.ctx n).state ≠ .offline && !(s.ctx n).fresh
      && decide (s.globals.reportLapse ≤ (s.ctx n).lapse + 1)
    let judged (s : State) (r : RigId) : Bool := (s.rig r).members.length ≠ 0 && (s.rig r).members.all fun m =>
      (s.ctx m).state = .follow && (s.ctx m).fresh && (s.ctx m).lastFollow.map FollowError.gseq = some s.engine.gseq
    (∀ s ∈ [dueNow running, lapsing, skewing], s.resetLow = false ∧ s.arbiter = some .step)
      ∧ (∀ s ∈ [dueNow running, lapsing, skewing], s.TablesLaw ∧ s.FlagsLaw ∧ s.ContestsLaw)
      ∧ ((∀ n, lapses (dueNow running) n = false) ∧ ∀ r, judged (dueNow running) r = false)
      ∧ ((∀ n, lapses lapsing n = decide (n = 2)) ∧ (lapsing.ctx 2).holds .reportLost = false
        ∧ lapsing.rigOf 2 = none ∧ (lapsing.ctx 2).fault = none ∧ ∀ r, judged lapsing r = false)
      ∧ ((∀ n, lapses skewing n = false) ∧ (∀ r, judged skewing r = decide (r = 0))
        ∧ (skewing.rig 0).members = 0 :: [1] ∧ (skewing.ctx 0).fault = none
        ∧ (skewing.ctx 0).holds .rigSkew = false ∧ ((skewing.rig 0).skewTol : Int) < 101 - 0)
      ∧ (bothLapsing.arbiter = some .step ∧ (∀ n, lapses bothLapsing n = decide (n = 0 ∨ n = 1))
        ∧ (∀ r, judged bothLapsing r = false) ∧ (bothLapsing.rig 0).members = [0, 1]
        ∧ (∀ n ∈ [(0 : AxisId), 1], (bothLapsing.ctx n).state = .follow ∧ (bothLapsing.ctx n).fault = none
          ∧ (bothLapsing.ctx n).holds .reportLost = false))
      ∧ running.governor.state = .armed ∧ State.reset.governor.state = .safe
      ∧ State.reset.globals.swapAuto = true := by
  refine ⟨by decide, ?_, by decide, by decide, by decide, by decide, by decide⟩
  intro s hs
  fin_cases hs
  · exact ⟨running_tables, running_flags, running_contests⟩
  · exact ⟨running_tables, running_flags, by unfold State.ContestsLaw; decide⟩
  · exact ⟨running_tables, running_flags, by unfold State.ContestsLaw; decide⟩

/-- Every state that is not shaped; the settle count at 1 and above; a dwell that ends and one that does not. -/
theorem witness_AdvanceOfUnshapedStates :
    (running.ctx 7).state = .offline ∧ (running.ctx 3).state = .locked ∧ (running.ctx 4).state.code = 3
      ∧ (running.ctx 5).state = .holding 2
      ∧ ((stand 0 (axis 1) (.stopping .fault) 5 120 running).ctx 0).state = .stopping .fault
      ∧ ((stand 2 (axis 3) (.stopping .normal) 5 41 running).ctx 2).state = .stopping .normal
      ∧ (let s := (stand 0 (axis 1) .dwelling 5 0 running).setDwell 0 (some 1);
          (s.ctx 0).state = .dwelling ∧ s.rigOf 0 = some 0 ∧ (∃ k ∈ Bank.at' s.dwell 0, k ≤ 1)
            ∧ s.governor.state = .armed ∧ (s.entry 0).park = some 1000000)
      ∧ ¬ (∃ k ∈ Bank.at' ((stand 0 (axis 1) .dwelling 5 0 running).setDwell 0 (some 2)).dwell 0, k ≤ 1) := by decide

/-- An axis in FOLLOW at its target, one recovering, one parking alone, and one parking in a proportional rig. -/
theorem witness_AdvanceOfShapedStates : running.TablesLaw ∧ running.MotionsLaw ∧ (running.ctx 0).state = .follow
    ∧ (running.ctx 0).p = (running.ctx 0).t ∧ (running.ctx 0).v = 0 ∧ (running.ctx 6).state = .recovering
    ∧ ((stand 2 (axis 3) .parking 1000100 (-40) running).ctx 2).state = .parking
    ∧ ((stand 2 (axis 3) .parking 1000100 (-40) running).entry 2).park = some 1000000
    ∧ (let s := stand 0 (axis 1) .parking 1000400 0 running
      (s.ctx 0).state = .parking ∧ s.rigOf 0 = some 0 ∧ (s.rig 0).proportional = true
        ∧ ((s.rig 0).members.filter fun m => (s.ctx m).state = .parking) = [0]) :=
  ⟨running_tables, running_motions, by decide, by decide, by decide, by decide, by decide, by decide, by decide⟩

/-- A lone axis, and a member of a proportional rig. -/
theorem witness_StagesInFollow : (running.ctx 2).state = .follow ∧ (∀ r ∈ running.rigOf 2, (running.rig r).proportional = false)
    ∧ (running.ctx 1).state = .follow ∧ running.rigOf 1 = some 0 ∧ (running.rig 0).proportional = true
    ∧ (((running.rig 0).members.filter fun m => (running.ctx m).state = .follow).map fun _ => 16777216).min?
      = some 16777216 := by decide

theorem witness_RunOutDistance : 1 ≤ 1 ∧ (0 < 1 ∧ 1 ≤ 1) ∧ 1 ≤ 2 := by decide
theorem witness_RampCoversTheRunOut : 1 ≤ 1 := by decide

/-- A step in flight, before and after its latest completion, with a free and a busy branch. -/
theorem witness_StepCompletion :
    let s := after .stepStart (dueNow running)
    (s.resetLow = false ∧ s.engine.inFlight = some .setpoint)
      ∧ reached (ticksOf s.engine.lastStepStart + 600) s.clock = false
      ∧ reached (ticksOf s.engine.lastStepStart + 600) (s.elapse 600).clock = true
      ∧ (s.port .da).tx = none ∧ (s.branch .b0).command = none
      ∧ ((s.setTx .db (some { octets := [], freeAt := 1 })).port .db).tx ≠ none := by decide

/-- A report of five octets, of no enabled axis, and from the other branch's port. -/
theorem witness_ReportDiscarded :
    let s (p : PortId) (o : List Byte) := hold p 0x12 0 o 0 running
    let r (o : List Byte) : Received := { frame := { addr := 0xF0, kind := 0x12, seq := 0, payload := o }, arrival := 0 }
    let other := [9] ++ putS32 5 ++ [1]
    let third := [3] ++ putS32 5 ++ [1]
    (∀ p o, (s p o).QueuesLaw ∧ (s p o).TablesLaw) ∧ running.resetLow = false
      ∧ (s .da [1, 2, 3, 4, 5]).arbiter = some (.drive .da (r [1, 2, 3, 4, 5]) .b1)
      ∧ (s .da other).arbiter = some (.drive .da (r other) .b1)
      ∧ (∀ n, ¬ ((running.entry n).enabled = true ∧ (running.entry n).drive = u8 other 0))
      ∧ (s .db third).arbiter = some (.drive .db (r third) .b0)
      ∧ branchOn running.router.mapping .db = some (otherBranch (running.entry 2).branch)
      ∧ (running.entry 2).drive = u8 third 0 :=
  ⟨fun p o => ⟨queues_hold running_queues p _ _ o 0, by cases p <;> exact running_tables⟩, by decide, by decide, by decide,
    by decide, by decide, by decide, by decide⟩

/-- A straight report of each kind of state, at and beyond the tolerance, and one with a drive fault. -/
theorem witness_StraightReport :
    let o := [3] ++ putS32 5 ++ [1]
    let s := hold .da 0x12 1 o 0
      (running.setCtx 2 { running.ctx 2 with ring := [{ step := 0, p := 500000 }] })
    let r : Received := { frame := { addr := 0xF0, kind := 0x12, seq := 1, payload := o }, arrival := 0 }
    (s.resetLow = false ∧ s.arbiter = some (.drive .da r .b1) ∧ r.frame.payload.length = 6
        ∧ (s.entry 2).enabled = true ∧ (s.entry 2).drive = u8 o 0
        ∧ branchOn s.router.mapping .da = some (s.entry 2).branch
        ∧ (s.ctx 2).state.judgesFollowing = true ∧ (s.ctx 2).fault = none ∧ s.rigOf 2 = none
        ∧ s.governor.state = .armed
        ∧ (s.ctx 2).ring.find? (fun k => k.step == r.frame.seq - BitVec.ofNat 8 (s.entry 2).echoDelay)
          = some { step := 0, p := 500000 })
      ∧ (s.entry 2).followTol < ((5 : Int) - 500000).natAbs ∧ ((520000 : Int) - 500000).natAbs ≤ (s.entry 2).followTol
      ∧ s.QueuesLaw ∧ s.TablesLaw ∧ s.EnabledLaw ∧ s.ModesLaw
      ∧ (running.ctx 3).state = .locked ∧ (running.ctx 4).state.code = 3 ∧ (armable.ctx 0).state = .standby :=
  ⟨by decide, by decide, by decide, queues_hold (s := running.setCtx 2 _) running_queues .da _ _ _ 0, running_tables,
    by unfold State.EnabledLaw; decide, by unfold State.ModesLaw; decide, by decide, by decide, by decide⟩

/-- A report that shows not READY, of an axis LOCKED, RELEASING with no echo and with one in its ring, and in FOLLOW with
no echo and with an echo beyond the tolerance, and of one in STANDBY. -/
theorem witness_StraightReport_bad :
    let o (d : Byte) := [d] ++ putS32 5 ++ [0]
    let s (d : Byte) := hold .da 0x12 1 (o d) 0 running
    let r (d : Byte) : Received := { frame := { addr := 0xF0, kind := 0x12, seq := 1, payload := o d }, arrival := 0 }
    let b := hold .da 0x12 1 (o 1) 0 armable
    (∀ d ∈ [(3 : Byte), 4, 5], (s d).arbiter = some (.drive .da (r d) .b1))
      ∧ (running.ctx 2).state.judgesFollowing = true ∧ (running.ctx 2).ring = []
      ∧ (let e := hold .da 0x12 1 (o 3) 0
          (running.setCtx 2 { running.ctx 2 with ring := [{ step := 0, p := 500000 }] });
        e.arbiter = some (.drive .da (r 3) .b1)
          ∧ (e.ctx 2).ring.find? (fun k => k.step == 1 - BitVec.ofNat 8 (e.entry 2).echoDelay)
            = some { step := 0, p := 500000 }
          ∧ (e.entry 2).followTol < ((5 : Int) - 500000).natAbs ∧ (e.ctx 2).holds .followErr = false)
      ∧ (let e := hold .da 0x12 1 (o 5) 0
          (running.setCtx 4 { running.ctx 4 with ring := [{ step := 0, p := 7000 }] });
        e.arbiter = some (.drive .da (r 5) .b1) ∧ (e.ctx 4).state.code = 3
          ∧ ((e.ctx 4).ring.find? fun k => k.step == 1 - BitVec.ofNat 8 (e.entry 4).echoDelay).isSome = true)
      ∧ (running.ctx 3).state = .locked ∧ (running.ctx 4).state.code = 3
      ∧ (∀ n, (running.ctx n).holds .driveFault = false)
      ∧ (b.arbiter = some (.drive .da (r 1) .b1) ∧ (b.ctx 0).state = .standby
        ∧ (b.ctx 0).holds .driveFault = false) := by decide

theorem witness_FaultCausesAct : running.TablesLaw ∧ running.FlagsLaw ∧ running.ContestsLaw
    ∧ (running.ctx 0).faultRow = .stop ∧ (running.ctx 4).faultRow = .lock ∧ (running.ctx 3).faultRow = .recordOnly
    ∧ (running.ctx 5).faultRow = .stop ∧ ((stand 2 (axis 3) .parking 0 0 running).ctx 2).faultRow = .escalate :=
  ⟨running_tables, running_flags, running_contests, by decide, by decide, by decide, by decide, by decide⟩

/-! ## Witnesses: requests -/

/-- The hypotheses that every request statement shares. -/
theorem asked_of {o : List Byte} {s : State} {k : ReqKind} (h : s.QueuesLaw) (low : s.resetLow = false)
    (a : (ask o s).arbiter.bind Work.consoleFrame = some (req o)) (r : (req o).request = k)
    (room : s.queues.responses.length < 2) : (ask o s).QueuesLaw ∧ (ask o s).asked k (req o) :=
  ⟨queues_ask h o, low, a, rfl, r, room⟩

/-- The table code 3 and beyond, a count of 0 and beyond the most, a length that does not fit, and a good read. -/
theorem witness_ReadsAndUnknownRequests :
    (∀ o ∈ [[1, 4, 0, 1], [1, 3, 0, 0], [1, 0, 7, 2], [1, 0, 7, 1, 9], [1, 3, 5, 1]],
        (ask o State.reset).QueuesLaw ∧ (ask o State.reset).asked .readTable (req o))
      ∧ ((ask [11] State.reset).QueuesLaw ∧ (ask [11] State.reset).asked .readLines (req [11]))
      ∧ (ask [14] State.reset).QueuesLaw ∧ (ask [14] State.reset).asked .unknown (req [14]) := by
  refine ⟨?_, asked_of reset_queues rfl (by decide) (by decide) (by decide),
    asked_of reset_queues rfl (by decide) (by decide) (by decide)⟩
  intro o ho
  fin_cases ho <;> exact asked_of reset_queues rfl (by decide) (by decide) (by decide)

/-- Entries that pass; writes whose form is refused and passes; writes to each table that each of its checks refuses
and that pass. -/
theorem witness_FieldChecksAcceptTheRanges :
    let both := stand 0 (axis 1) .standby 0 0 <| stand 1 (axis 2) .standby 0 0 State.reset
    let bound := { both with rigTable := Bank.put both.rigTable 0 { RigEntry.initial with members := [0] } }
    let axes (e : AxisEntry) := req ([2, 0, 0, 1] ++ e.encode)
    let rigs (e : RigEntry) := req ([2, 1, 1, 1] ++ e.encode)
    (tableForm true (req [2, 4, 0, 1]) = .badTable ∧ tableForm true (req [2, 0, 0, 0]) = .badIndex
        ∧ tableForm true (req [2, 0, 0, 1]) = .badRequest)
      ∧ (∀ f ∈ [axes (axis 2), axes { axis 1 with dmax := 0 }, axes { axis 1 with enabled := false },
            rigs RigEntry.initial, rigs { RigEntry.initial with members := [0] }],
          tableForm true f = .ok ∧ (headTable f = some .axis ∨ headTable f = some .rig))
      ∧ (both.judgeWrite .axis (axes (axis 2)) = .badValue 0 3
        ∧ both.judgeWrite .axis (axes { axis 1 with dmax := 0 }) = .badValue 0 8
        ∧ bound.judgeWrite .axis (axes { axis 1 with enabled := false }) = .inRig 0
        ∧ running.judgeWrite .axis (axes (axis 1)) = .wrongState .armed (some .follow)
        ∧ bound.judgeWrite .rig (rigs { RigEntry.initial with members := [0] }) = .badValue 1 1
        ∧ both.judgeWrite .rig (rigs { RigEntry.initial with members := [0] }) = .ok)
      ∧ running.judgeWrite .globals (req ([2, 2, 0, 1] ++ Globals.initial.encode)) = .wrongState .armed none
      ∧ State.reset.judgeWrite .line (req ([2, 3, 5, 1] ++ [7, 0, 0, 0])) = .badValue 5 1
      ∧
    firstFailing (axisFieldChecks (axis 62).encode) = none ∧ (axis 62).encode.length = 32
      ∧ firstFailing (globalFieldChecks Globals.initial.encode) = none ∧ Globals.initial.encode.length = 12
      ∧ firstFailing (lineFieldChecks LineEntry.initial.encode) = none ∧ LineEntry.initial.encode.length = 4
      ∧ firstFailing (running.rigFieldChecks (running.rig 0).encode) = none ∧ (running.rig 0).encode.length = 13
      ∧ (∀ n ∈ (running.rig 0).members, (running.entry n).enabled = true
        ∧ ((running.rig 0).profile = .stopDwellPark → (running.entry n).park ≠ none)) := by decide

set_option maxRecDepth 20000 in
/-- A write refused by its form, one refused by a check, and one accepted for each table; a line entry whose filter
time a noted change has passed and whose function places a notice. -/
theorem witness_TableWritten :
    let bad : List Byte := [2, 0, 0, 0]
    let field := [2, 0, 7, 1] ++ { axis 0x15 with dmax := 300, dstop := 250 }.encode
    let good : List (List Byte) := [[2, 0, 7, 1] ++ (axis 0x15).encode, [2, 1, 3, 1] ++ RigEntry.initial.encode,
      [2, 2, 0, 1] ++ { Globals.initial with P := 1000 }.encode, [2, 3, 5, 1] ++ LineEntry.initial.encode]
    (∀ o ∈ bad :: field :: good, (ask o State.reset).QueuesLaw ∧ (ask o State.reset).asked .writeTable (req o))
      ∧ State.reset.EnabledLaw ∧ State.reset.ModesLaw ∧ State.reset.FlagsLaw
      ∧ (let note := State.reset.setLine (.gl 5)
            { State.reset.line (.gl 5) with pin := true, noted := some (State.reset.timeBase - 1000) };
          let new : LineEntry := { fn := .armKeyIn, arg := 0, invert := false, filter := 1 };
          note.judgeWrite .line (req ([2, 3, 5, 1] ++ new.encode)) = .ok ∧ new.fn.placesNotices = true
            ∧ new.filter ≠ (Bank.at' note.lineTable 5).filter
            ∧ ∃ τ ∈ (note.line (.gl 5)).noted, new.filter * 1000 ≤ (note.timeBase - τ).toNat)
      ∧ tableForm true (req bad) ≠ .ok
      ∧ (headTable (req field) = some .axis ∧ tableForm true (req field) = .ok
        ∧ State.reset.judgeWrite .axis (req field) ≠ .ok)
      ∧ ∀ k : Fin 4, tableForm true (req (good.getD k.val [])) = .ok
        ∧ ∃ tb ∈ headTable (req (good.getD k.val [])), State.reset.judgeWrite tb (req (good.getD k.val [])) = .ok := by
  refine ⟨?_, by unfold State.EnabledLaw; decide, by unfold State.ModesLaw; decide, by unfold State.FlagsLaw; decide,
    by decide, by decide, by decide, by decide⟩
  intro o ho
  fin_cases ho <;> exact asked_of reset_queues rfl (by decide) (by decide) (by decide)

/-- ARM accepted, and refused in the governor's wrong state. -/
theorem witness_ArmRequest :
    ((ask [3] armable).QueuesLaw ∧ (ask [3] armable).asked .arm (req [3])) ∧ armable.judgeArm = .ok
      ∧ ((ask [3] running).QueuesLaw ∧ (ask [3] running).asked .arm (req [3])) ∧ running.judgeArm ≠ .ok :=
  ⟨asked_of (s := armable) reset_queues rfl (by decide) (by decide) (by decide), by decide,
    asked_of running_queues rfl (by decide) (by decide) (by decide), by decide⟩

theorem witness_GovernorRequests :
    ((ask [4] releasable).QueuesLaw ∧ (ask [4] releasable).asked .disarm (req [4])) ∧ releasable.judgeDisarm = .ok
      ∧ running.judgeDisarm ≠ .ok
      ∧ ((ask [5] running).QueuesLaw ∧ (ask [5] running).asked .stopAll (req [5])) ∧ running.governor.state ≠ .safe
      ∧ ((ask [6] tripped).QueuesLaw ∧ (ask [6] tripped).asked .resetTrip (req [6])) ∧ tripped.judgeResetTrip = .ok
      ∧ (ask [4] releasable).CausesLaw ∧ (ask [5] running).CausesLaw ∧ (ask [6] tripped).CausesLaw :=
  ⟨asked_of (s := releasable) releasable_queues rfl (by decide) (by decide) (by decide), by decide, by decide,
    asked_of running_queues rfl (by decide) (by decide) (by decide), by decide,
    asked_of (s := tripped) tripped_queues rfl (by decide) (by decide) (by decide), by decide,
    (show releasable.governor.causes = 0 ∧ releasable.governor.activeCauses = 0 by decide), running_causes,
    (show tripped.governor.causes &&& 0x0F = tripped.governor.activeCauses by decide)⟩

/-- Two LOCKED axes with reports, members of rig 0. -/
def rigged : State :=
  let s := reported 1 5 (stand 1 (axis 2) .locked 0 0 releasable)
  { s with rigTable := Bank.put s.rigTable 0 { RigEntry.initial with members := [0, 1] } }

theorem rigged_queues : rigged.QueuesLaw :=
  ⟨by intro p; cases p <;> decide, by decide, by decide, by intro b; cases b <;> decide,
    by intro _ b; cases b <;> decide, by decide, by intro _ p b; cases p <;> cases b <;> decide⟩

set_option maxRecDepth 20000 in
theorem releasable_tables : releasable.TablesLaw :=
  ⟨by unfold AxisEntry.Valid; decide, by unfold RigEntry.Valid; decide, by unfold Globals.Valid; decide,
    by unfold LineEntry.Valid; decide, by decide, by decide, by decide⟩
set_option maxRecDepth 20000 in
theorem rigged_tables : rigged.TablesLaw :=
  ⟨by unfold AxisEntry.Valid; decide, by unfold RigEntry.Valid; decide, by unfold Globals.Valid; decide,
    by unfold LineEntry.Valid; decide, by decide, by decide, by decide⟩

/-- A lone axis and a rig that RELEASE accepts, and requests that it refuses by target, index and state. -/
theorem witness_ReleaseRequest :
    (∀ o ∈ [[7, 0, 0], [7, 0, 8], [7, 1, 4], [7, 2, 0]],
        (ask o releasable).QueuesLaw ∧ (ask o releasable).asked .release (req o))
      ∧ (releasable.TablesLaw ∧ rigged.TablesLaw)
      ∧ (releasable.FlagsLaw ∧ releasable.CausesLaw ∧ releasable.ContestsLaw)
      ∧ releasable.judgeRelease (req [7, 0, 0]) = .ok
      ∧ ((ask [7, 1, 0] rigged).QueuesLaw ∧ (ask [7, 1, 0] rigged).asked .release (req [7, 1, 0]))
      ∧ (rigged.FlagsLaw ∧ rigged.CausesLaw ∧ rigged.ContestsLaw) ∧ rigged.judgeRelease (req [7, 1, 0]) = .ok
      ∧ rigged.judgeRelease (req [7, 0, 0]) = .wrongTarget := by
  refine ⟨?_, ⟨releasable_tables, rigged_tables⟩,
    ⟨by unfold State.FlagsLaw; decide,
      (show releasable.governor.causes = 0 ∧ releasable.governor.activeCauses = 0 by decide),
      by unfold State.ContestsLaw; decide⟩, by decide,
    asked_of (s := rigged) rigged_queues rfl (by decide) (by decide) (by decide),
    ⟨by unfold State.FlagsLaw; decide,
      (show releasable.governor.causes = 0 ∧ releasable.governor.activeCauses = 0 by decide),
      by unfold State.ContestsLaw; decide⟩, by decide, by decide⟩
  intro o ho
  fin_cases ho <;> exact asked_of (s := releasable) releasable_queues rfl (by decide) (by decide) (by decide)

/-- RECOVER accepted; LOCK of a rig, of a lone axis and of one RELEASING accepted; rigs that LOCK refuses, with their
lead in FOLLOW and in neither condition; targets and states that are refused. -/
theorem witness_RecoverAndLockRequests :
    let s := reported 3 12000900 running
    (∀ o ∈ [[9, 3], [9, 8], [9, 5]], (ask o s).QueuesLaw ∧ (ask o s).asked .recover (req o))
      ∧ (∀ o ∈ [[8, 1, 0], [8, 0, 2], [8, 0, 4], [8, 0, 8], [8, 1, 4], [8, 2, 0], [8, 0, 5]],
        (ask o s).QueuesLaw ∧ (ask o s).asked .lock (req o))
      ∧ s.judgeRecover (req [9, 3]) = .ok ∧ s.judgeLock (req [8, 1, 0]) = .ok ∧ s.judgeLock (req [8, 0, 4]) = .ok
      ∧ (let t := s.setCtx 1 { s.ctx 1 with state := .locked }
        t.judgeLock (req [8, 1, 0]) = .wrongState .armed (some .locked) ∧ (t.ctx 0).state = .follow
          ∧ (t.rig 0).members = 0 :: [1])
      ∧ (let t := s.setCtx 0 { s.ctx 0 with state := .dwelling }
        t.judgeLock (req [8, 1, 0]) = .wrongState .armed (some .dwelling) ∧ (t.ctx 1).state = .follow)
      ∧ s.FlagsLaw ∧ s.CausesLaw ∧ s.ContestsLaw := by
  refine ⟨?_, ?_, by decide, by decide, by decide, by decide, by decide, running_flags, running_causes, by unfold State.ContestsLaw; decide⟩
  · intro o ho
    fin_cases ho <;> exact asked_of (s := reported 3 12000900 running) running_queues rfl (by decide) (by decide) (by decide)
  · intro o ho
    fin_cases ho <;> exact asked_of (s := reported 3 12000900 running) running_queues rfl (by decide) (by decide) (by decide)

/-- The mask at and beyond flag 21; every selector and one beyond; the clear flag 0, 1 and 2. -/
theorem witness_AcksAndCounters :
    (∀ o ∈ [[10, 0xFF, 0xFF, 0x3F], [10, 0, 0, 0x40]],
        (ask o running).QueuesLaw ∧ (ask o running).asked .ackEvents (req o))
      ∧ ∀ o ∈ [[12, 0, 0], [12, 2, 1], [12, 3, 0], [12, 3, 1], [12, 3, 2], [12, 4, 0]],
        (ask o running).QueuesLaw ∧ (ask o running).asked .readCounters (req o) := by
  constructor <;> intro o ho <;> fin_cases ho <;>
    exact asked_of running_queues rfl (by decide) (by decide) (by decide)

theorem witness_PortResetRequest :
    (∀ o ∈ [[13, 0], [13, 1], [13, 2], [13, 3]],
        ((ask o running).QueuesLaw ∧ (ask o running).asked .portReset (req o))
          ∧ (ask o State.reset).QueuesLaw ∧ (ask o State.reset).asked .portReset (req o))
      ∧ portCode 2 = some .db ∧ branchOn State.reset.router.mapping .db = some .b1
      ∧ State.reset.governor.state = .safe ∧ running.governor.state ≠ .safe := by
  refine ⟨?_, by decide⟩
  intro o ho
  fin_cases ho <;> exact ⟨asked_of running_queues rfl (by decide) (by decide) (by decide),
    asked_of reset_queues rfl (by decide) (by decide) (by decide)⟩

/-- The arbiter's choices: a notice before a due step, that before the console's frame, that before a drive's; the
other branch's when the branch in turn has none; none in flight. A full response FIFO; a command of another row than
the frame at the head. -/
theorem witness_UnansweredRequests :
    let all := waiting .tripEntry (dueNow (ask [5] (hold .da 0x12 0 [1] 0 (hold .db 0x12 0 [2] 0 running))))
    let drives := hold .da 0x12 0 [1] 0 (hold .db 0x12 0 [2] 0 running)
    let r (o : Byte) : Received := { frame := { addr := 0xF0, kind := 0x12, seq := 0, payload := [o] }, arrival := 0 }
    (all.arbiter = some (.notice .tripEntry) ∧ (all.setNotices []).arbiter = some .step
      ∧ (ask [5] drives).arbiter = some (.console { frame := req [5], arrival := 0 })
      ∧ drives.arbiter = some (.drive .da (r 1) .b1)
      ∧ (hold .db 0x12 0 [2] 0 running).arbiter = some (.drive .db (r 2) .b0)
      ∧ { all with engine := { all.engine with inFlight := some .timer } }.arbiter = none)
    ∧
    let s := ask [5] { running with queues := { running.queues with responses := [req [], req []] } }
    (s.resetLow = false ∧ s.arbiter = some (.console { frame := req [5], arrival := 0 }) ∧ (req [5]).kind = 0x20
        ∧ 2 ≤ s.queues.responses.length)
      ∧ (req [5]).request ≠ .arm ∧ running.arbiter = none := by decide

/-! ## Witnesses: notices and lines -/

/-- A lone axis, a recovering axis, a rig member whose fellow is open, and an axis that is not RELEASING. -/
theorem witness_SenseAndIdleNotices :
    let n (k : AxisId) := Notice.line (.sns k) true true
    let s := waiting (n 0) (stand 0 (axis 1) (.releasing .follow false) 0 0 <|
      stand 1 (axis 2) (.releasing .follow true) 0 0 running)
    ((waiting (n 4) running).resetLow = false ∧ (waiting (n 4) running).arbiter = some (.notice (n 4))
        ∧ (running.ctx 4).state = .releasing .follow false ∧ running.rigOf 4 = none ∧ running.governor.state = .armed)
      ∧ (s.arbiter = some (.notice (n 0)) ∧ s.rigOf 0 = some 0
        ∧ ∀ m ∈ (s.rig 0).members, m ≠ 0 → (s.ctx m).state = .releasing .follow true)
      ∧ ((waiting (n 5) running).arbiter = some (.notice (n 5)) ∧ (running.ctx 5).state.code ≠ 3)
      ∧ (let r := waiting (n 2) (stand 2 (axis 3) (.releasing .recovering false) 0 0 running);
          r.arbiter = some (.notice (n 2)) ∧ (r.ctx 2).state = .releasing .recovering false)
      ∧ (waiting (.line .clearIn false false) running).arbiter = some (.notice (.line .clearIn false false))
      ∧ ((waiting (.line (.gl 0) true true) (general .armKeyIn running)).arbiter
          = some (.notice (.line (.gl 0) true true))
        ∧ (Bank.at' (general .armKeyIn running).lineTable 0).fn = .armKeyIn) := by decide

theorem witness_RaisingNotices : running.resetLow = false ∧ running.TablesLaw ∧ running.FlagsLaw ∧ running.ContestsLaw
    ∧ (waiting (.line (.eot 2) true true) running).arbiter = some (.notice (.line (.eot 2) true true))
    ∧ (waiting (.line (.eot 2) false false) running).arbiter = some (.notice (.line (.eot 2) false false))
    ∧ (waiting (.contest 4) running).arbiter = some (.notice (.contest 4))
    ∧ (let s := waiting (.line (.gl 0) true true) (general .rigHoldIn running);
        s.arbiter = some (.notice (.line (.gl 0) true true)) ∧ (Bank.at' s.lineTable 0).fn = .rigHoldIn
          ∧ (s.rig (Bank.at' s.lineTable 0).arg).members.head? = some 0 ∧ (s.ctx 0).state.holdable = true
          ∧ (s.ctx 0).holds .rigHold = false) :=
  ⟨by decide, running_tables, running_flags, running_contests, by decide, by decide, by decide, by decide⟩

theorem witness_TripEntryTaken : (waiting .tripEntry running).resetLow = false ∧ (waiting .tripEntry running).FlagsLaw
    ∧ (waiting .tripEntry running).ContestsLaw ∧ (waiting .tripEntry running).arbiter = some (.notice .tripEntry) :=
  ⟨by decide, running_flags, running_contests, by decide⟩

/-- A strap, a return to the accepted level, before and at the filter time, a noted change, a filter time of 0; a
noted change of each kind of line. -/
theorem witness_PinsAndFilters :
    let note (l : LineId) (pin : Bool) := (running.setLine l { pin := pin, accepted := !pin, noted := some 7 })
    ((running.line (.adr 0)).pin ≠ true ∧ (LineId.adr 0).filtered = false)
      ∧ (((note .stopIn false).line .stopIn).pin ≠ true ∧ ((note .stopIn false).line .stopIn).accepted = true)
      ∧ (let due := ticksOf (addMicros 7 ((note .stopIn false).filterMicros .stopIn))
        reached due (running.clock + BitVec.ofNat 50 8027) = false
          ∧ reached due (running.clock + BitVec.ofNat 50 8028) = true)
      ∧ ((running.line .stopIn).pin ≠ false ∧ (running.line .stopIn).accepted ≠ false
        ∧ 0 < running.filterMicros .stopIn)
      ∧ (let s := { running with lineTable := Bank.put running.lineTable 5 { LineEntry.initial with filter := 0 } };
          (s.line (.gl 5)).pin ≠ true ∧ (s.line (.gl 5)).accepted ≠ true ∧ (Bank.at' s.lineTable 5).filter = 0)
      ∧ (∀ l ∈ [LineId.clearOut, .brk 7, .eot 0, .gl 5, .sns 4, .stopIn, .clearIn], ∀ pin,
        (note l pin).resetLow = false ∧ l.filtered = true ∧ ((note l pin).line l).noted = some 7)
      ∧ (running.governor.stop = false ∧ running.governor.chain = false)
      ∧ (running.line .stopIn).noted = none := by decide

/-- A contest of each phase, with permission on and off, where the sense agrees and where it does not; a contest with
no mismatch time, and no contest. -/
theorem witness_ContestExpiries :
    let s (n : AxisId) (b sense : Bool) (ph : Phase) := level (.sns n) sense (running.setContest n
      (some { permission := b, phase := ph, stuck := false }))
    (∀ b sense, (s 4 b sense (.settling 9)).resetLow = false
        ∧ (s 4 b sense (.settling 9)).contest 4 = some { permission := b, phase := .settling 9, stuck := false }
        ∧ (s 4 b sense (.settling 9)).senseReleased 4 = sense)
      ∧ (s 4 true false (.watching (some 9))).contest 4
        = some { permission := true, phase := .watching (some 9), stuck := false }
      ∧ (running.contest 4 = some { permission := true, phase := .watching none, stuck := false })
      ∧ running.contest 7 = none
      ∧ (∀ b sense, (s 4 b sense (.settling 9)).FlagsLaw) := by
  refine ⟨by decide, by decide, by decide, by decide, ?_⟩
  intro b sense; cases b <;> cases sense <;> (unfold State.FlagsLaw; decide)

end Sys2Proof.Tests
end

/-! The run-out distance (R79). Every fact about `runOut` goes through `runOut_eq_sum`: the closed form is the sum of
the slower speeds, and on the sum the two properties and the fall in the deceleration are read off term by term. -/

namespace Sys2Proof.Machine

open Finset (range sum_range_succ sum_range_succ' sum_le_sum sum_le_sum_of_subset range_mono)

/-- The arithmetic series of the slower speeds, doubled and without subtraction, over any number of steps at which
the speed has not yet fallen below 0. -/
theorem two_mul_sum_slower_speeds (s d n : Nat) (hn : n * d ≤ s) :
    2 * (∑ k ∈ range n, (s - (k + 1) * d)) + d * (n * (n + 1)) = 2 * (n * s) := by
  induction n with
  | zero => simp
  | succ n ih =>
    have shorter : n * d ≤ s := (Nat.mul_le_mul_right d n.le_succ).trans hn
    have lastSpeed : s - (n + 1) * d + (n + 1) * d = s := Nat.sub_add_cancel hn
    rw [sum_range_succ]
    linear_combination ih shorter + 2 * lastSpeed

/-- The closed form of R79 is the sum of the speeds s − d, s − 2d and so on: its halving and its subtraction lose
nothing. -/
theorem runOut_eq_sum (s d : Nat) : runOut s d = ∑ k ∈ range (s / d), (s - (k + 1) * d) := by
  have series := two_mul_sum_slower_speeds s d (s / d) (Nat.div_mul_le_self s d)
  unfold runOut
  omega

theorem two_mul_runOut (s d : Nat) : 2 * runOut s d + d * (s / d * (s / d + 1)) = 2 * (s / d * s) := by
  rw [runOut_eq_sum]
  exact two_mul_sum_slower_speeds s d (s / d) (Nat.div_mul_le_self s d)

@[simp] theorem runOut_of_lt {s d : Nat} (h : s < d) : runOut s d = 0 := by
  simp [runOut_eq_sum, Nat.div_eq_of_lt h]

/-- The second property of R79: one step slower by d uses up exactly that step of the run-out. -/
theorem runOut_of_le {s d : Nat} (hd : 0 < d) (h : d ≤ s) : runOut s d = (s - d) + runOut (s - d) d := by
  have oneMoreStep : s / d = (s - d) / d + 1 := Nat.div_eq_sub_div hd h
  have laterSpeed (k : Nat) : s - (k + 1 + 1) * d = s - d - (k + 1) * d := by
    rw [Nat.add_one_mul (k + 1), Nat.add_comm, Nat.sub_add_eq]
  rw [runOut_eq_sum, runOut_eq_sum, oneMoreStep, sum_range_succ', Nat.add_comm]
  simp [laterSpeed]

/-- A harder deceleration has no more slower speeds to sum, and each of them is no higher. -/
theorem runOut_anti {d d' : Nat} (s : Nat) (hd : 0 < d) (h : d ≤ d') : runOut s d' ≤ runOut s d := by
  rw [runOut_eq_sum, runOut_eq_sum]
  calc ∑ k ∈ range (s / d'), (s - (k + 1) * d')
      ≤ ∑ k ∈ range (s / d'), (s - (k + 1) * d) :=
        sum_le_sum fun k _ => Nat.sub_le_sub_left (Nat.mul_le_mul_left (k + 1) h) s
    _ ≤ ∑ k ∈ range (s / d), (s - (k + 1) * d) :=
        sum_le_sum_of_subset (range_mono (Nat.div_le_div_left h hd))

/-- Settles O40: the closed form, the sum and the two properties of R79, and the fall in the deceleration. -/
theorem runOutDistance : Obligations.RunOutDistance := by
  intro s d hd
  refine ⟨?closedForm, ?sum, runOut_of_lt, runOut_of_le hd, fun _ => runOut_anti s hd⟩
  case closedForm =>
    have doubled : 2 * (runOut s d : Int) + d * ((s / d : Nat) * ((s / d : Nat) + 1)) = 2 * ((s / d : Nat) * s) :=
      mod_cast two_mul_runOut s d
    linear_combination doubled
  case sum => exact runOut_eq_sum s d

end Sys2Proof.Machine

/-! Trip entry (R125) and the rigs in FOLLOW (R109). Both laws speak of the states the axes stand in, of the rigs and
of the waiting trip entry, and most of what a command does leaves these alone. `State.Halts` says what one operation
does to them: it takes the axes it names out of FOLLOW and leads none astray. Operations that name no axis are calm;
one that names whole rigs abides by both laws, and so does the opening of a rig as a whole. -/

namespace Sys2Proof.Machine

/-! ## The laws axis by axis -/

/-- The governor is TRIPPED and its trip entry has been taken (R124, R146). -/
def State.tripTaken (s : State) : Prop := s.governor.state = .tripped ∧ Notice.tripEntry ∉ s.engine.notices

/-- An axis stands as R125 forbids. -/
def State.astray (s : State) (m : AxisId) : Prop := s.tripTaken ∧ (s.ctx m).state.endedByTrip = true

theorem State.afterTripLaw_iff {s : State} : s.AfterTripLaw ↔ ∀ m, ¬ s.astray m := by
  simp only [State.AfterTripLaw, State.astray, State.tripTaken, not_and, Bool.not_eq_true, and_imp]
  exact ⟨fun h m trip taken => h trip taken m, fun h trip taken m => h m trip taken⟩

theorem State.not_tripTaken_of_armed {s : State} (h : s.governor.state = .armed) : ¬ s.tripTaken := by
  simp [State.tripTaken, h]

/-- No axis is a member of two rigs (R65). -/
def State.RigsApart (s : State) : Prop := ∀ r q, ∀ n, n ∈ (s.rig r).members → n ∈ (s.rig q).members → r = q

theorem State.TablesLaw.rigsApart {s : State} (h : s.TablesLaw) : s.RigsApart := by
  obtain ⟨-, -, -, -, -, -, apart⟩ := h
  exact apart

theorem State.not_mem_of_rigOf_none {s : State} {n : AxisId} (h : s.rigOf n = none) (r : RigId) :
    n ∉ (s.rig r).members := by
  simpa using List.find?_eq_none.mp h r (mem_allRigs r)

theorem State.mem_of_rigOf {s : State} {n : AxisId} {r : RigId} (h : s.rigOf n = some r) : n ∈ (s.rig r).members := by
  simpa using List.find?_some h

theorem State.rig_congr {s t : State} (h : t.rigTable = s.rigTable) (r : RigId) : t.rig r = s.rig r := by
  rw [State.rig, State.rig, h]

theorem State.rigOf_congr {s t : State} (h : t.rigTable = s.rigTable) (n : AxisId) : t.rigOf n = s.rigOf n := by
  simp only [State.rigOf, State.rig_congr h]

/-- Both laws hold after when they held before, over rigs that stay apart. -/
structure State.Abides (s t : State) : Prop where
  astray : ∀ m, t.astray m → s.astray m
  apart : s.RigsApart → t.RigsApart
  rigs : s.RigsApart → s.RigsLaw → t.RigsLaw

theorem State.Abides.refl (s : State) : s.Abides s := ⟨fun _ h => h, id, fun _ h => h⟩

theorem State.Abides.trans {s t u : State} (h : s.Abides t) (k : t.Abides u) : s.Abides u where
  astray m a := h.astray m (k.astray m a)
  apart a := k.apart (h.apart a)
  rigs a l := k.rigs (h.apart a) (h.rigs a l)

theorem State.Abides.ite {s t u : State} {c : Prop} [Decidable c] (h : c → s.Abides t) (k : ¬ c → s.Abides u) :
    s.Abides (if c then t else u) := by
  split
  · exact h ‹_›
  · exact k ‹_›

/-- A fold whose every step abides; `st` reads the state off what is folded. -/
theorem State.Abides.foldl {α β : Type} (st : β → State) (f : β → α → β) (h : ∀ b x, (st b).Abides (st (f b x)))
    (l : List α) (b : β) : (st b).Abides (st (l.foldl f b)) := by
  induction l generalizing b with
  | nil => exact .refl _
  | cons x l ih => exact (h b x).trans (ih (f b x))

/-- Exactly the axes listed are taken out of FOLLOW if they stood there; the rigs stay, TRIPPED is not entered without
its trip entry, and once that is taken no axis enters a state that R125 forbids. -/
structure State.Halts (l : List AxisId) (s t : State) : Prop where
  rigTable : t.rigTable = s.rigTable
  taken : t.tripTaken → s.tripTaken
  follow : ∀ m, (t.ctx m).state = .follow ↔ (s.ctx m).state = .follow ∧ m ∉ l
  ended : t.tripTaken → ∀ m, (t.ctx m).state.endedByTrip = true → (s.ctx m).state.endedByTrip = true

/-- No axis enters or leaves FOLLOW, and none goes astray. -/
abbrev State.Calm (s t : State) : Prop := s.Halts [] t

theorem State.Halts.congr {l k : List AxisId} {s t : State} (h : s.Halts l t) (e : ∀ m, m ∈ l ↔ m ∈ k) :
    s.Halts k t := { h with follow := fun m => by rw [h.follow, e] }

theorem State.Halts.trans {l k : List AxisId} {s t u : State} (h : s.Halts l t) (g : t.Halts k u) :
    s.Halts (l ++ k) u where
  rigTable := g.rigTable.trans h.rigTable
  taken a := h.taken (g.taken a)
  follow m := by rw [g.follow, h.follow, List.mem_append, not_or, and_assoc]
  ended a m b := h.ended (g.taken a) m (g.ended a m b)

theorem State.Halts.calm {l : List AxisId} {s t u : State} (h : s.Halts l t) (g : t.Calm u) : s.Halts l u :=
  (h.trans g).congr (by simp)

/-- Calm is where the states of the axes stand as they stood. -/
theorem State.Calm.of_states {s t : State} (rigTable : t.rigTable = s.rigTable) (taken : t.tripTaken → s.tripTaken)
    (states : ∀ m, (t.ctx m).state = (s.ctx m).state) : s.Calm t where
  rigTable := rigTable
  taken := taken
  follow m := by simp [states]
  ended _ m := by simp [states]

theorem State.Calm.refl (s : State) : s.Calm s := .of_states rfl id fun _ => rfl

theorem State.Calm.trans {s t u : State} (h : s.Calm t) (g : t.Calm u) : s.Calm u := State.Halts.calm h g

theorem State.Calm.ite {s t u : State} {c : Prop} [Decidable c] (h : s.Calm t) (k : s.Calm u) :
    s.Calm (if c then t else u) := by
  split <;> assumption

/-- What leaves the axes, the rigs, governor control and the engine alone is calm. -/
theorem State.Calm.of_keepsBut {l : List Part} {s t : State} (h : s.keepsBut l t)
    (away : Part.axes ∉ l ∧ Part.rigTable ∉ l ∧ Part.governor ∉ l ∧ Part.engine ∉ l := by simp) : s.Calm t := by
  obtain ⟨axes, rigTable, governor, engine⟩ := away
  have axes : t.axes = s.axes := h _ axes
  have governor : t.governor = s.governor := h _ governor
  have engine : t.engine = s.engine := h _ engine
  exact .of_states (h _ rigTable) (by simp [State.tripTaken, governor, engine]) fun m => by simp [State.ctx, axes]

/-- A fold that halts each axis in turn halts them all. -/
theorem State.Halts.foldl {f : State → AxisId → State} (h : ∀ (s : State) (x : AxisId), s.Halts [x] (f s x))
    (l : List AxisId) (s : State) : s.Halts l (l.foldl f s) := by
  induction l generalizing s with
  | nil => exact State.Calm.refl s
  | cons x l ih => exact (h s x).trans (ih (f s x))

theorem State.Halts.astray {l : List AxisId} {s t : State} (h : s.Halts l t) (m : AxisId) (a : t.astray m) :
    s.astray m := ⟨h.taken a.1, h.ended a.1 m a.2⟩

/-! ## When what is halted abides by both laws -/

theorem State.RigsApart.of_rigTable {s t : State} (h : t.rigTable = s.rigTable) (apart : s.RigsApart) :
    t.RigsApart := by
  simpa only [State.RigsApart, State.rig_congr h] using apart

/-- An operation abides when it halts every member of a rig with a member in FOLLOW that it halts (R109, R114). -/
theorem State.Halts.abides {l : List AxisId} {s t : State} (h : s.Halts l t)
    (whole : s.RigsApart → ∀ n ∈ l, (s.ctx n).state = .follow → ∀ r, n ∈ (s.rig r).members →
      ∀ m ∈ (s.rig r).members, m ∈ l) : s.Abides t where
  astray := h.astray
  apart := .of_rigTable h.rigTable
  rigs apart law r n hn stands m hm := by
    rw [State.rig_congr h.rigTable] at hn hm
    obtain ⟨stood, off⟩ := (h.follow n).mp stands
    have stoodToo := law r n hn stood m hm
    exact (h.follow m).mpr ⟨stoodToo, fun on => off (whole apart m on stoodToo r hm n hn)⟩

theorem State.Calm.abides {s t : State} (h : s.Calm t) : s.Abides t := State.Halts.abides h (by simp)

/-! ## Governor control and notices -/

theorem State.joinCause_calm (s : State) (c : TripCause) : s.Calm (s.joinCause c) := by
  rcases s.joinCause_cases c with ⟨-, h⟩ | ⟨-, h⟩ | ⟨-, h⟩ <;> rw [h]
  · exact .refl s
  · exact .of_states rfl (fun a => absurd (mem_placeOnce _ _) a.2) fun _ => rfl
  · exact .of_states rfl id fun _ => rfl

theorem State.leaveCause_calm (s : State) (c : TripCause) : s.Calm (s.leaveCause c) := by
  rw [State.leaveCause_eq]
  exact .of_states rfl id fun _ => rfl

theorem Governor.withCondition_state (g : Governor) (c : TripCause) (b : Bool) :
    (g.withCondition c b).state = g.state := by
  cases c <;> rfl

theorem State.reportCondition_calm (s : State) (c : TripCause) (b : Bool) : s.Calm (s.reportCondition c b) := by
  have flag (b : Bool) : s.Calm { s with governor := s.governor.withCondition c b } :=
    .of_states rfl (by simp [State.tripTaken, Governor.withCondition_state]) fun _ => rfl
  rcases s.reportCondition_cases c b with ⟨-, h⟩ | ⟨-, -, h⟩ | ⟨-, -, h⟩ <;> rw [h]
  · exact .refl s
  · exact (flag true).calm (State.joinCause_calm _ c)
  · exact (flag false).calm (State.leaveCause_calm _ c)

theorem State.reportStuck_calm (s : State) : s.Calm s.reportStuck := s.reportCondition_calm _ _

/-- A notice list that still holds the waiting trip entry. -/
theorem State.setNotices_calm {s : State} {l : List Notice}
    (h : Notice.tripEntry ∈ s.engine.notices → Notice.tripEntry ∈ l) : s.Calm (s.setNotices l) :=
  .of_states rfl (And.imp_right (mt h)) fun _ => rfl

theorem tripEntry_mem_placeLineNotice (src : NoticeLine) (active : Bool) {l : List Notice}
    (h : Notice.tripEntry ∈ l) : Notice.tripEntry ∈ placeLineNotice src active l := by
  unfold placeLineNotice
  split
  · exact List.mem_map.mpr ⟨_, h, rfl⟩
  · exact List.mem_append_left _ h

theorem mem_placeOnce_of_mem {n m : Notice} {l : List Notice} (h : m ∈ l) : m ∈ placeOnce n l := by
  unfold placeOnce
  split
  · exact h
  · exact List.mem_append_left _ h

/-! ## Contexts and contests -/

theorem State.restartContest_calm (s : State) (n : AxisId) (b : Bool) : s.Calm (s.restartContest n b) := by
  unfold State.restartContest
  split
  · exact .refl s
  · exact (State.Calm.of_keepsBut (s.setContest_keeps n _)).calm (State.reportStuck_calm _)

theorem State.setCtx_calm {s : State} {n : AxisId} {x : Ctx} (h : x.state = (s.ctx n).state) : s.Calm (s.setCtx n x) :=
  .of_states rfl id fun m => by
    rw [State.setCtx_ctx]
    split
    · subst_vars; exact h
    · rfl

theorem State.changeCtx_rigTable (s : State) (n : AxisId) (x : Ctx) : (s.changeCtx n x).rigTable = s.rigTable :=
  s.changeCtx_keeps n x .rigTable (by decide)

theorem State.tripTaken_of_changeCtx {s : State} {n : AxisId} {x : Ctx} (h : (s.changeCtx n x).tripTaken) :
    s.tripTaken := by
  rcases s.changeCtx_cases n x with ⟨-, e⟩ | ⟨-, e⟩ <;> rw [e] at h
  · exact h
  · exact (State.restartContest_calm (s.setCtx n x) _ _).taken h

/-- An axis leaves the state it was in for one that R125 allows. -/
theorem State.changeCtx_halts {s : State} {n : AxisId} {x : Ctx} (h : x.state.endedByTrip = false) :
    s.Halts [n] (s.changeCtx n x) where
  rigTable := s.changeCtx_rigTable n x
  taken := State.tripTaken_of_changeCtx
  follow m := by
    have : x.state ≠ .follow := by rintro e; simp [e, AxisState.endedByTrip] at h
    by_cases e : n = m <;> simp [e, this, eq_comm]
  ended _ m := by by_cases e : n = m <;> simp [e, h]

/-- After a calm start an axis takes a context that is in FOLLOW exactly if the axis was at that start, and that goes
astray only where the axis already did. -/
theorem State.Halts.changeCtx {s₀ s : State} (h : s₀.Calm s) {n : AxisId} {x : Ctx}
    (follow : x.state = .follow ↔ (s₀.ctx n).state = .follow)
    (ended : s₀.tripTaken → x.state.endedByTrip = true → (s₀.ctx n).state.endedByTrip = true) :
    s₀.Calm (s.changeCtx n x) where
  rigTable := (s.changeCtx_rigTable n x).trans h.rigTable
  taken a := h.taken (State.tripTaken_of_changeCtx a)
  follow m := by
    by_cases e : n = m
    · subst e; simpa using follow
    · simpa [e] using h.follow m
  ended a m := by
    have before := State.tripTaken_of_changeCtx a
    by_cases e : n = m
    · subst e; simpa using ended (h.taken before)
    · simpa [e] using h.ended before m

theorem State.enterState_halts {s : State} {n : AxisId} {st : AxisState} (h : st.endedByTrip = false) :
    s.Halts [n] (s.enterState n st) := State.changeCtx_halts h

/-! ## Fault causes -/

@[simp] theorem Ctx.record_state (c : Cause) (g : Byte) (x : Ctx) : (x.record c g).state = x.state := by
  unfold Ctx.record
  split <;> rfl

theorem FaultRow.target_allowed {row : FaultRow} {st : AxisState} (h : row.target = some st) :
    st.endedByTrip = false := by
  cases row <;> simp only [FaultRow.target, Option.some.injEq, reduceCtorEq] at h <;> subst h <;> rfl

/-- A member in FOLLOW stands in an acting row (R113). -/
theorem Ctx.faultRow_follow {x : Ctx} (h : x.state = .follow) : x.faultRow = .stop := by
  simp [Ctx.faultRow, h]

/-- A calm operation on an axis that is not in FOLLOW halts it. -/
theorem State.Calm.halts {s t : State} {n : AxisId} (h : s.Calm t) (off : (s.ctx n).state ≠ .follow) : s.Halts [n] t :=
  { h with
    follow := fun m => by
      rw [h.follow]
      by_cases e : m = n
      · subst e; simp [off]
      · simp [e] }

theorem State.takeOverMember_halts (s : State) (m : AxisId) : s.Halts [m] (s.takeOverMember m) := by
  unfold State.takeOverMember
  dsimp only
  split
  next off => exact (State.Calm.refl s).halts (by simp [off])
  split
  next row =>
    refine (State.setCtx_calm (Ctx.record_state _ _ _)).halts fun stands => ?_
    simp [Ctx.faultRow_follow stands, FaultRow.target] at row
  next st row =>
    exact (State.changeCtx_halts (FaultRow.target_allowed row)).calm (.of_keepsBut (State.latchEvent_keeps _ _))

theorem State.takeOver_halts (s : State) (n : AxisId) : s.Halts (s.others n) (s.takeOver n) := by
  unfold State.takeOver State.others
  cases s.rigOf n with
  | none => exact State.Calm.refl s
  | some r => exact State.Halts.foldl State.takeOverMember_halts _ s

theorem State.latchFault_calm (s : State) (n : AxisId) : s.Calm (s.latchFault n) := .of_keepsBut (s.latchFault_keeps n)

theorem State.others_congr {s t : State} (h : t.rigTable = s.rigTable) (n : AxisId) : t.others n = s.others n := by
  simp only [State.others, State.rigOf_congr h, State.rig_congr h]

/-- The axis and the other members of its rig are all the members of any rig they touch. -/
theorem State.others_whole {s : State} (apart : s.RigsApart) {n k m : AxisId} (hk : k ∈ n :: s.others n) {r : RigId}
    (hr : k ∈ (s.rig r).members) (hm : m ∈ (s.rig r).members) : m ∈ n :: s.others n := by
  unfold State.others at hk ⊢
  cases e : s.rigOf n with
  | none =>
    obtain rfl : k = n := by simpa [e] using hk
    exact absurd hr (State.not_mem_of_rigOf_none e r)
  | some q =>
    have own := State.mem_of_rigOf e
    have : k ∈ (s.rig q).members := by
      rcases List.mem_cons.mp hk with rfl | hk
      · exact own
      · exact (by simpa [e] using hk : _ ∧ _).1
    obtain rfl := apart r q k hr this
    by_cases h : m = n <;> simp [h, hm]

/-- A cause that stops or locks an axis takes over the rest of its rig (R113, R114). -/
theorem State.haltWithRig_abides (s : State) {n : AxisId} {x : Ctx} (h : x.state.endedByTrip = false) :
    s.Abides (((s.changeCtx n x).latchFault n).takeOver n) := by
  have axis : s.Halts [n] ((s.changeCtx n x).latchFault n) := (State.changeCtx_halts h).calm (State.latchFault_calm _ n)
  have rest := State.takeOver_halts ((s.changeCtx n x).latchFault n) n
  rw [State.others_congr axis.rigTable] at rest
  exact (axis.trans rest).abides fun apart k hk _ r hr m hm => State.others_whole apart hk hr hm

theorem Judging.raise_abides (before : Vector Ctx 8) (n : AxisId) (c : Cause) (j : Judging) :
    j.st.Abides (j.raise before n c).st := by
  have recorded : j.st.Calm (j.st.setCtx n ((j.st.ctx n).record c j.st.engine.gseq)) :=
    State.setCtx_calm (Ctx.record_state _ _ _)
  unfold Judging.raise
  dsimp only
  split
  · exact .refl _
  split
  · exact .refl _
  split
  · exact recorded.abides
  split
  case h_1 => exact recorded.abides
  case h_2 => exact ((recorded.trans (State.latchFault_calm _ n)).trans (State.joinCause_calm _ _)).abides
  case h_3 => exact State.haltWithRig_abides _ rfl
  case h_4 => exact State.haltWithRig_abides _ rfl

theorem Judging.raiseOnce_abides (before : Vector Ctx 8) (n : AxisId) (c : Cause) (j : Judging) :
    j.st.Abides (j.raiseOnce before n c).st := by
  unfold Judging.raiseOnce
  split
  · exact .refl _
  · exact j.raise_abides before n c

theorem State.raiseAlone_abides (s : State) (n : AxisId) (c : Cause) : s.Abides (s.raiseAlone n c) :=
  Judging.raise_abides _ n c s.judging

theorem State.raiseAloneOnce_abides (s : State) (n : AxisId) (c : Cause) : s.Abides (s.raiseAloneOnce n c) :=
  Judging.raiseOnce_abides _ n c s.judging

/-! ## Frames to and from the link -/

theorem State.linkError_calm (s : State) (p : PortId) (c : PortCounter) : s.Calm (s.linkError p c) :=
  (State.Calm.of_keepsBut (s.bumpPort_keeps p c)).trans (.of_keepsBut (State.latchEvent_keeps _ _))

theorem State.setRx_calm (s : State) (p : PortId) (x : Receiver) : s.Calm (s.setRx p x) :=
  .of_keepsBut (s.setRx_keeps p x)

theorem State.elapse_calm (s : State) (w : Nat) : s.Calm (s.elapse w) := .of_keepsBut (s.elapse_keeps w)

theorem State.advanceTo_calm (s : State) (d : Ticks) : s.Calm (s.advanceTo d) := .of_keepsBut (s.advanceTo_keeps d)

theorem State.route_calm (s : State) (p : PortId) : s.Calm (s.route p) := .of_keepsBut (s.route_keeps p)

theorem State.startTx_calm (s : State) (p : PortId) : s.Calm (s.startTx p) := .of_keepsBut (s.startTx_keeps p)

theorem State.dropHead_calm (s : State) (p : PortId) : s.Calm (s.dropHead p) := .of_keepsBut (s.setFifo_keeps p _)

theorem State.bump_calm (s : State) (c : GlobalCounter) : s.Calm (s.bump c) := .of_keepsBut (s.bump_keeps c)

theorem State.latchEvent_calm (s : State) (e : EventFlag) : s.Calm (s.latchEvent e) :=
  .of_keepsBut (s.latchEvent_keeps e)

theorem State.gapAt_calm (s : State) (p : PortId) : s.Calm (s.gapAt p) := by
  unfold State.gapAt
  dsimp only
  split
  case h_4 => exact .refl s
  case h_3 => exact (s.setRx_calm p _).trans (State.linkError_calm _ p _)
  all_goals exact s.setRx_calm p _

theorem State.overdueGap_calm (s : State) (p : PortId) (edge : Ticks) : s.Calm (s.overdueGap p edge) := by
  rcases s.overdueGap_cases p edge with ⟨-, h⟩ | ⟨-, h⟩ <;> rw [h]
  · exact .refl s
  · exact s.gapAt_calm p

theorem State.takeCharacter_calm (s : State) (p : PortId) (x : Receiver) (octet : Byte) (cls : CharClass) (span : Nat) :
    s.Calm (s.takeCharacter p x octet cls span) := by
  have moved (y : Receiver) := s.setRx_calm p y
  have erred (y : Receiver) (c : PortCounter) := (moved y).trans (State.linkError_calm _ p c)
  unfold State.takeCharacter
  split
  case h_2 | h_7 => exact moved _
  case h_5 => exact .ite (.ite (moved _) (erred _ _)) (moved _)
  case h_6 =>
    split
    · exact erred _ _
    · exact moved _
  all_goals exact erred _ _

theorem State.receive_calm (s : State) (p : PortId) (octet : Byte) (stopMark : Bool) (span : Nat) :
    s.Calm (s.receive p octet stopMark span) :=
  .ite ((s.overdueGap_calm p _).trans (State.takeCharacter_calm _ p _ _ _ _)) (.refl s)

theorem State.gapEvent_calm (s : State) (p : PortId) : s.Calm (s.gapEvent p) := by
  unfold State.gapEvent
  dsimp only
  split
  · exact .ite ((s.advanceTo_calm _).trans (State.gapAt_calm _ p)) (.refl s)
  · exact .refl s

theorem State.longBreakAt_calm (s : State) (p : PortId) : s.Calm (s.longBreakAt p) :=
  have counted := (s.setRx_calm p _).trans (State.linkError_calm _ p .longBreak)
  .ite (counted.trans (State.joinCause_calm _ _)) counted

theorem State.longBreakEvent_calm (s : State) (p : PortId) : s.Calm (s.longBreakEvent p) := by
  unfold State.longBreakEvent
  dsimp only
  split
  · exact (s.advanceTo_calm _).trans (State.longBreakAt_calm _ p)
  · exact .refl s

theorem State.backToHunt_calm (s : State) (p : PortId) : s.Calm (s.backToHunt p) := s.setRx_calm p _

theorem State.returnEvent_calm (s : State) (p : PortId) : s.Calm (s.returnEvent p) := by
  unfold State.returnEvent
  dsimp only
  split
  · exact s.backToHunt_calm p
  · exact .ite ((s.longBreakAt_calm p).trans (State.backToHunt_calm _ p))
      ((s.linkError_calm p _).trans (State.backToHunt_calm _ p))
  · exact .ite (s.backToHunt_calm p) (.refl s)

theorem State.falseStartEvent_calm (s : State) (p : PortId) : s.Calm (s.falseStartEvent p) :=
  .ite ((s.overdueGap_calm p _).trans (State.setRx_calm _ p _)) (.refl s)

theorem State.offer_calm (s : State) (p : PortId) (r : Received) : s.Calm (s.offer p r) :=
  have placed (l : List Received) : s.Calm (s.setFifo p l) := .of_keepsBut (s.setFifo_keeps p l)
  .ite (s.linkError_calm p _) (.ite ((placed _).trans (State.route_calm _ p)) (placed _))

theorem State.completeEvent_calm (s : State) (p : PortId) : s.Calm (s.completeEvent p) := by
  unfold State.completeEvent
  dsimp only
  split
  · have hunting := s.setRx_calm p ((s.port p).rx.enter (.hunt false))
    refine .ite (.ite (hunting.trans ?_) (hunting.trans (State.linkError_calm _ p _))) (.refl s)
    exact (State.Calm.of_keepsBut (State.bumpPort_keeps _ p _)).trans (State.offer_calm _ p _)
  · exact .refl s

theorem State.transmitEvent_calm (s : State) (p : PortId) : s.Calm (s.transmitEvent p) := by
  unfold State.transmitEvent
  split
  · exact ((s.advanceTo_calm _).trans (.of_keepsBut (State.setTx_keeps _ p none))).trans (State.startTx_calm _ p)
  · exact .refl s

/-! ## Cadence -/

theorem State.setCadence_calm (s : State) (c : Cadence) : s.Calm (s.setCadence c) := .of_keepsBut (s.setCadence_keeps c)

theorem State.makeDue_calm (s : State) : s.Calm s.makeDue := .of_states rfl id fun _ => rfl

theorem State.cadenceChanged_calm (s : State) : s.Calm s.cadenceChanged :=
  (s.latchEvent_calm _).trans (State.reportCondition_calm _ _ _)

theorem State.startPaceFromLastStep_calm (s : State) : s.Calm s.startPaceFromLastStep :=
  .ite (s.makeDue_calm.trans (State.setCadence_calm _ _)) (s.setCadence_calm _)

theorem State.acceptLocking_calm (s : State) (arrival last : Micros) : s.Calm (s.acceptLocking arrival last) :=
  .ite (.ite (((s.setCadence_calm _).trans (State.makeDue_calm _)).trans (State.cadenceChanged_calm _))
    (s.setCadence_calm _)) (s.setCadence_calm _)

theorem State.acceptLocked_calm (s : State) (arrival last : Micros) : s.Calm (s.acceptLocked arrival last) :=
  have jittered (c : Cadence) := (s.bump_calm .jitter).trans (State.setCadence_calm _ c)
  .ite ((s.setCadence_calm _).trans (State.makeDue_calm _))
    (.ite (((jittered _).trans (State.startPaceFromLastStep_calm _)).trans (State.cadenceChanged_calm _))
      ((jittered _).trans (State.makeDue_calm _)))

theorem State.judgeCadence_calm (s : State) (arrival : Micros) : s.Calm (s.judgeCadence arrival) := by
  unfold State.judgeCadence
  dsimp only
  split
  · exact (s.setCadence_calm _).trans (State.cadenceChanged_calm _)
  · exact s.acceptLocking_calm arrival _
  · exact s.acceptLocked_calm arrival _

theorem State.rewriteCadence_calm (s : State) : s.Calm s.rewriteCadence :=
  have restarted := (s.setCadence_calm _).trans (State.startPaceFromLastStep_calm _)
  .ite restarted (restarted.trans (State.cadenceChanged_calm _))

theorem State.paceExpiry_calm (s : State) : s.Calm s.paceExpiry := by
  unfold State.paceExpiry
  split
  · exact .refl s
  · exact ((s.advanceTo_calm _).trans (State.makeDue_calm _)).trans (State.setCadence_calm _ _)

theorem State.lapseExpiry_calm (s : State) : s.Calm s.lapseExpiry := by
  unfold State.lapseExpiry
  split
  · exact (((s.advanceTo_calm _).trans (State.makeDue_calm _)).trans (State.setCadence_calm _ _)).trans
      (State.cadenceChanged_calm _)
  · exact .refl s

/-! ## Lines and brake contests -/

theorem State.setLine_calm (s : State) (l : LineId) (x : Line) : s.Calm (s.setLine l x) :=
  .of_keepsBut (s.setLine_keeps l x)

theorem State.setContest_calm (s : State) (n : AxisId) (x : Option Contest) : s.Calm (s.setContest n x) :=
  .of_keepsBut (s.setContest_keeps n x)

theorem State.contestSense_calm (s : State) (n : AxisId) : s.Calm (s.contestSense n) := by
  unfold State.contestSense
  split
  · exact .refl s
  · exact (s.setContest_calm n _).trans (State.reportStuck_calm _)

theorem State.contestFails_calm (s : State) (n : AxisId) (c : Contest) : s.Calm (s.contestFails n c) :=
  .ite ((s.setContest_calm n _).trans (State.setNotices_calm mem_placeOnce_of_mem))
    ((s.setContest_calm n _).trans (State.reportStuck_calm _))

theorem State.settleExpiry_calm (s : State) (n : AxisId) : s.Calm (s.settleExpiry n) := by
  unfold State.settleExpiry
  split
  · exact .refl s
  split
  · exact .refl s
  · exact .ite ((s.advanceTo_calm _).trans (State.setContest_calm _ n _))
      ((s.advanceTo_calm _).trans (State.contestFails_calm _ n _))

theorem State.mismatchExpiry_calm (s : State) (n : AxisId) : s.Calm (s.mismatchExpiry n) := by
  unfold State.mismatchExpiry
  split
  · exact .refl s
  split
  · exact (s.advanceTo_calm _).trans (State.contestFails_calm _ n _)
  all_goals exact .refl s

theorem State.placeLine_calm (s : State) (src : NoticeLine) (l : LineId) : s.Calm (s.placeLine src l) :=
  State.setNotices_calm (tripEntry_mem_placeLineNotice _ _)

theorem State.reportChain_calm (s : State) : s.Calm s.reportChain := s.reportCondition_calm _ _

theorem State.acceptedChange_calm (s : State) (l : LineId) : s.Calm (s.acceptedChange l) := by
  unfold State.acceptedChange
  split
  case h_1 => exact (s.contestSense_calm _).trans (State.placeLine_calm _ _ _)
  case h_2 => exact s.placeLine_calm _ _
  case h_3 => exact (s.reportCondition_calm _ _).trans (State.placeLine_calm _ _ _)
  case h_4 => exact s.reportChain_calm.trans (State.placeLine_calm _ _ _)
  all_goals exact .refl s

theorem State.acceptGen_calm (s : State) (k : GenId) : s.Calm (s.acceptGen k) :=
  have accepted := s.setLine_calm (.gl k) _
  .ite (accepted.trans (State.setNotices_calm (tripEntry_mem_placeLineNotice _ _))) accepted

theorem State.acceptLine_calm (s : State) (l : LineId) : s.Calm (s.acceptLine l) := by
  unfold State.acceptLine
  split
  · exact s.acceptGen_calm _
  · exact (s.setLine_calm l _).trans (State.acceptedChange_calm _ l)

theorem State.inputAccepted_calm (s : State) (l : LineId) : s.Calm (s.inputAccepted l) := by
  unfold State.inputAccepted
  split
  · exact .refl s
  · exact (s.advanceTo_calm _).trans (State.acceptLine_calm _ l)

theorem State.overdueAcceptance_calm (s : State) (l : LineId) (now : Ticks) : s.Calm (s.overdueAcceptance l now) := by
  rcases s.overdueAcceptance_cases l now with ⟨h, -⟩ | ⟨-, -, -, h⟩ <;> rw [h]
  · exact .refl s
  · exact s.inputAccepted_calm l

theorem State.filterPin_calm (s : State) (l : LineId) (high : Bool) : s.Calm (s.filterPin l high) :=
  .ite (s.setLine_calm l _) (.ite ((s.setLine_calm l _).trans (State.acceptLine_calm _ l)) (s.setLine_calm l _))

theorem State.pinChange_calm (s : State) (l : LineId) (high : Bool) : s.Calm (s.pinChange l high) := by
  unfold State.pinChange
  split
  · exact .refl s
  split
  · exact s.setLine_calm _ _
  · exact s.filterPin_calm l high

theorem State.pinEvent_calm (s : State) (l : LineId) (high : Bool) (wait : Nat) : s.Calm (s.pinEvent l high wait) := by
  have overdue := State.Calm.ite (c := (s.line l).pin = high) (.refl s)
    (s.overdueAcceptance_calm l (s.clock + BitVec.ofNat 50 wait))
  refine (overdue.trans ?later).trans (State.pinChange_calm _ l high)
  case later => exact .of_states rfl id fun _ => rfl

/-! ## Steps -/

theorem State.judgeInterval_calm (s : State) : s.Calm s.judgeInterval := by
  have recorded (x : Router) : s.Calm { s with router := x } := .of_states rfl id fun _ => rfl
  exact .ite (.ite (.ite ((recorded _).trans (State.latchEvent_calm _ _)) (recorded _)) (recorded _)) (.refl s)

theorem lapseAxis_abides (before : Vector Ctx 8) (j : Judging) (n : AxisId) :
    j.st.Abides (lapseAxis before j n).st := by
  have counted : j.st.Calm (j.st.setCtx n { j.st.ctx n with lapse := min 255 ((j.st.ctx n).lapse + 1) }) :=
    State.setCtx_calm rfl
  unfold lapseAxis
  dsimp only
  split
  · exact .refl _
  split
  · exact counted.abides.trans (Judging.raiseOnce_abides before n _ { j with st := _ })
  · exact counted.abides

theorem State.lapseStage_abides (s : State) : s.Abides s.lapseStage :=
  State.Abides.foldl Judging.st _ (lapseAxis_abides s.axes) allAxes s.judging

theorem skewRig_abides (s₀ : State) (fresh : AxisId → Bool) (j : Judging) (r : RigId) :
    j.st.Abides (skewRig s₀ fresh j r).st := by
  unfold skewRig
  split
  · split
    · exact Judging.raiseOnce_abides _ _ _ j
    · exact .refl _
  · exact .refl _

theorem State.skewStage_abides (fresh : AxisId → Bool) (s : State) : s.Abides (s.skewStage fresh) :=
  State.Abides.foldl Judging.st _ (skewRig_abides s fresh) allRigs s.judging

theorem State.clearFresh_calm (s : State) : s.Calm s.clearFresh :=
  .of_states rfl id fun m => by rw [State.clearFresh_ctx]

/-- An advance leaves an axis in its state, or brings an axis that was not in FOLLOW to a state that R125 allows, or
begins PARKING, which only an ARMED governor lets it do (R58, R91, R93, R117 to R121). -/
theorem State.advanced_cases (s : State) (n : AxisId) :
    (s.advanced n).state = (s.ctx n).state
      ∨ (s.ctx n).state ≠ .follow ∧ (s.advanced n).state.endedByTrip = false
      ∨ (s.ctx n).state = .dwelling ∧ (s.advanced n).state = .parking ∧ s.governor.state = .armed := by
  unfold State.advanced
  dsimp only
  split
  case h_6 stands =>
    split
    · exact .inr (.inl ⟨by simp [stands], rfl⟩)
    · exact .inl rfl
  case h_7 stands =>
    split
    · exact .inr (.inl ⟨by simp [stands], rfl⟩)
    · exact .inl rfl
  case h_8 stands =>
    split
    · exact .inr (.inl ⟨by simp [stands], by dsimp only; split <;> rfl⟩)
    · exact .inl rfl
  case h_9 stands => exact .inr (.inl ⟨by simp [stands], by dsimp only; split <;> rfl⟩)
  case h_10 stands =>
    split
    · split
      case isTrue armed => exact .inr (.inr ⟨stands, rfl, armed⟩)
      case isFalse => exact .inr (.inl ⟨by simp [stands], rfl⟩)
    · exact .inl rfl
  all_goals exact .inl rfl

theorem State.advanced_follow (s : State) (n : AxisId) :
    (s.advanced n).state = .follow ↔ (s.ctx n).state = .follow := by
  rcases s.advanced_cases n with h | ⟨off, allowed⟩ | ⟨stood, parks, -⟩
  · rw [h]
  · exact iff_of_false (fun e => by simp [e, AxisState.endedByTrip] at allowed) off
  · simp [stood, parks]

theorem State.advanced_ended {s : State} (n : AxisId) (trip : s.tripTaken)
    (h : (s.advanced n).state.endedByTrip = true) : (s.ctx n).state.endedByTrip = true := by
  rcases s.advanced_cases n with same | ⟨-, allowed⟩ | ⟨-, -, armed⟩
  · rwa [same] at h
  · simp [allowed] at h
  · exact absurd trip (State.not_tripTaken_of_armed armed)

theorem advanceAxis_calm {s₀ s : State} (h : s₀.Calm s) (n : AxisId) : s₀.Calm (advanceAxis s₀ s n) :=
  have moved := State.Halts.changeCtx h (s₀.advanced_follow n) (State.advanced_ended n)
  .ite (moved.trans (State.bump_calm _ _)) moved

theorem State.setDwells_calm (s : State) (x : Vector (Option Nat) 4) : s.Calm { s with dwell := x } :=
  .of_states rfl id fun _ => rfl

theorem State.advance_calm (s : State) : s.Calm s.advance := by
  refine State.Calm.trans ?axes (State.setDwells_calm _ _)
  exact List.foldlRecOn (motive := s.Calm) allAxes (advanceAxis s) (s.setDwells_calm _) fun _ h n _ =>
    advanceAxis_calm h n

theorem State.startStep_abides (s : State) : s.Abides s.startStep := by
  have begun : s.Calm s.beginStep := .of_states rfl id fun _ => rfl
  have counted (t : State) : t.Calm t.nextGseq := .of_states rfl id fun _ => rfl
  have first := ((begun.trans (State.judgeInterval_calm _)).trans (counted _)).abides.trans (State.lapseStage_abides _)
  exact ((first.trans (State.clearFresh_calm _).abides).trans (State.skewStage_abides _ _)).trans
    (State.advance_calm _).abides

theorem State.stepStartEvent_abides (s : State) : s.Abides s.stepStartEvent := by
  unfold State.stepStartEvent
  split
  · exact s.startStep_abides
  · exact .refl s

theorem State.pushHistory_calm (s : State) : s.Calm s.pushHistory :=
  .of_states rfl id fun m => by
    simp only [State.pushHistory, State.ctx, Bank.at_mapIdx]
    split <;> rfl

theorem State.placeCommand_calm (s : State) (b : BranchId) (f : Frame) : s.Calm (s.placeCommand b f) := by
  have set (t : State) (x : BranchQueues) : t.Calm (t.setBranch b x) := .of_keepsBut (t.setBranch_keeps b x)
  unfold State.placeCommand
  dsimp only
  split
  · exact set s _
  · exact ((s.latchEvent_calm _).trans (State.bump_calm _ _)).trans (set _ _)

theorem State.completeStep_calm (s : State) (src : StepSource) : s.Calm (s.completeStep src) := by
  have status (t : State) (f : Frame) : t.Calm ((t.placeStatus f).judgeMotion.endStep) := .of_states rfl id fun _ => rfl
  refine (((State.Calm.trans ?commands (status _ _)).trans (State.startTx_calm _ .da)).trans
    (State.startTx_calm _ .db)).trans (State.startTx_calm _ .u)
  exact (s.pushHistory_calm.trans (State.placeCommand_calm _ .b0 _)).trans (State.placeCommand_calm _ .b1 _)

theorem State.stepCompletionEvent_calm (s : State) (wait : Nat) : s.Calm (s.stepCompletionEvent wait) := by
  unfold State.stepCompletionEvent
  split
  · exact .refl s
  · exact (s.elapse_calm _).trans (State.completeStep_calm _ _)

/-! ## Setpoints and reports -/

theorem State.storeTarget_calm (s : State) (e : Nat × Int) : s.Calm (s.storeTarget e) :=
  .ite (State.setCtx_calm rfl) (.refl s)

theorem State.acceptSetpoint_abides (s : State) (r : Received) : s.Abides (s.acceptSetpoint r) := by
  have seq (t : State) (q : Option Byte) : t.Calm { t with engine := { t.engine with lastSeq := q } } :=
    .of_states rfl id fun _ => rfl
  have stored (t : State) := State.Abides.foldl id (fun st e => st.storeTarget e)
    (fun st e => (st.storeTarget_calm e).abides) (setpointEntries r.frame.payload) t
  exact (((State.Calm.ite (s.bump_calm _) (.refl s)).trans (seq _ _)).abides.trans (stored _)).trans
    (State.judgeCadence_calm _ _).abides

theorem State.judgeSetpoint_abides (s : State) (r : Received) : s.Abides (s.judgeSetpoint r) :=
  .ite (fun _ => .ite (fun _ => (s.bump_calm _).abides) fun _ => s.acceptSetpoint_abides r)
    fun _ => (s.bump_calm _).abides

theorem State.takeSetpoint_abides (s : State) : s.Abides s.takeSetpoint := by
  unfold State.takeSetpoint
  split
  · exact .ite (fun _ => ((s.dropHead_calm .u).abides.trans (State.judgeSetpoint_abides _ _)).trans
      (State.route_calm _ .u).abides) fun _ => .refl s
  · exact .refl s

theorem State.setRouter_calm (s : State) (x : Router) : s.Calm { s with router := x } := .of_states rfl id fun _ => rfl

theorem State.crossedReport_calm (s : State) (p : PortId) : s.Calm (s.crossedReport p) := by
  have counted := s.bump_calm .crossed
  unfold State.crossedReport
  refine .ite ?recorded counted
  cases p with
  | u => exact counted
  | da | db => exact counted.trans (State.setRouter_calm _ _)

theorem State.unmatchedReport_calm (s : State) : s.Calm s.unmatchedReport :=
  .ite ((s.bump_calm _).trans (State.setRouter_calm _ _)) (s.bump_calm _)

theorem State.straightRecord_calm (s : State) : s.Calm s.straightRecord := .ite (s.setRouter_calm _) (.refl s)

@[simp] theorem Ctx.withReport_state (x : Ctx) (r : Report) : (x.withReport r).state = x.state := by
  unfold Ctx.withReport
  dsimp only
  split <;> rfl

theorem Judging.followingError_abides (before : Vector Ctx 8) (n : AxisId) (echo : Byte) (r : Report) (j : Judging) :
    j.st.Abides (j.followingError before n echo r).st := by
  unfold Judging.followingError
  dsimp only
  split
  · exact (State.bump_calm _ _).abides
  next q _ =>
    have stored := State.setCtx_calm (s := j.st) (n := n)
      (x := (j.st.ctx n).withError (r.position - q) j.st.engine.gseq) rfl
    split
    · exact stored.abides.trans (Judging.raiseOnce_abides before n _ { j with st := _ })
    · exact stored.abides

theorem State.brakeSlip_calm (s : State) (n : AxisId) (r : Report) : s.Calm (s.brakeSlip n r) :=
  have stored := State.setCtx_calm (s := s) (n := n)
    (x := (s.ctx n).withError (r.position - (s.ctx n).p) s.engine.gseq) rfl
  .ite (.refl s) (.ite ((stored.trans (State.latchEvent_calm _ _)).trans (State.joinCause_calm _ _)) stored)

theorem State.reportOn_abides (s : State) (n : AxisId) (echo : Byte) (r : Report) : s.Abides (s.reportOn n echo r) := by
  have taken : s.Calm (s.setCtx n ((s.ctx n).withReport r)) := State.setCtx_calm (Ctx.withReport_state _ r)
  unfold State.reportOn
  refine .ite (fun _ => .refl s) fun _ => ?_
  dsimp only
  generalize s.setCtx n ((s.ctx n).withReport r) = s₁ at taken ⊢
  have judged : s.Abides (if r.bad then s₁.judging.raiseOnce s₁.axes n .driveFault else s₁.judging).st := by
    split
    · exact taken.abides.trans (s₁.raiseAloneOnce_abides n _)
    · exact taken.abides
  exact .ite (fun _ => judged.trans (Judging.followingError_abides _ n echo r _)) fun _ =>
    .ite (fun _ => judged.trans (State.brakeSlip_calm _ n r).abides) fun _ => judged

theorem State.judgeReport_abides (s : State) (p : PortId) (f : Frame) : s.Abides (s.judgeReport p f) := by
  unfold State.judgeReport
  refine .ite (fun _ => ?_) fun _ => (s.bump_calm _).abides
  split
  · exact s.unmatchedReport_calm.abides
  · exact .ite (fun _ => s.straightRecord_calm.abides.trans (State.reportOn_abides _ _ _ _))
      fun _ => (s.crossedReport_calm p).abides

theorem State.takeReport_abides (s : State) : s.Abides s.takeReport := by
  have offered (t : State) (b : BranchId) : t.Calm { t with engine := { t.engine with nextBranch := b } } :=
    .of_states rfl id fun _ => rfl
  unfold State.takeReport
  split
  · exact (((s.dropHead_calm _).trans (offered _ _)).abides.trans (State.judgeReport_abides _ _ _)).trans
      (State.route_calm _ _).abides
  · exact .refl s

/-! ## Openings -/

/-- The state an axis stands in after it is opened (R108). -/
def AxisState.opened : AxisState → AxisState
  | .releasing .follow _ => .follow
  | .releasing .recovering _ => .recovering
  | st => st

theorem AxisState.opened_opened (st : AxisState) : st.opened.opened = st.opened := by
  rcases st with _ | _ | _ | ⟨_ | _, _⟩ | _ | _ | _ | _ | _ | _ <;> rfl

theorem AxisState.opened_of_openToFollow {st : AxisState} (h : st.openToFollow = true) : st.opened = .follow := by
  unfold AxisState.openToFollow at h
  split at h
  · rfl
  · cases h

theorem State.changeCtx_of_permission {s : State} {n : AxisId} {x : Ctx}
    (h : (s.ctx n).state.permission = x.state.permission) : s.changeCtx n x = s.setCtx n x := if_pos h

theorem State.openAxis_keeps (s : State) (n : AxisId) : s.keepsBut [.axes] (s.openAxis n) := by
  unfold State.openAxis
  dsimp only
  split
  case h_1 stands =>
    rw [State.changeCtx_of_permission (by simp [stands, AxisState.permission])]
    exact s.setCtx_keeps n _
  case h_2 stands =>
    rw [State.changeCtx_of_permission (by simp [stands, AxisState.permission])]
    exact s.setCtx_keeps n _
  case h_3 => exact State.keepsBut_refl _ s

theorem State.openAxis_state (s : State) (n m : AxisId) :
    ((s.openAxis n).ctx m).state = if n = m then (s.ctx m).state.opened else (s.ctx m).state := by
  unfold State.openAxis
  dsimp only
  split
  case h_1 stands =>
    by_cases e : n = m
    · subst e; simp [stands, AxisState.opened]
    · simp [e]
  case h_2 stands =>
    by_cases e : n = m
    · subst e; simp [stands, AxisState.opened]
    · simp [e]
  case h_3 toFollow toRecovering =>
    split
    · subst_vars
      unfold AxisState.opened
      split
      · exact absurd ‹_› (toFollow _)
      · exact absurd ‹_› (toRecovering _)
      · rfl
    · rfl

theorem State.openAxes_state (l : List AxisId) (s : State) (m : AxisId) :
    ((l.foldl (fun st k => st.openAxis k) s).ctx m).state
      = if m ∈ l then (s.ctx m).state.opened else (s.ctx m).state := by
  induction l generalizing s with
  | nil => rfl
  | cons k l ih =>
    rw [List.foldl_cons, ih, State.openAxis_state]
    by_cases e : k = m
    · simp [e, AxisState.opened_opened]
    · simp [e, Ne.symm e]

/-- An opening brings every member of a rig into FOLLOW, or leads none of them into it or out of it (R108). -/
theorem State.opening_whole {s : State} (apart : s.RigsApart) (n : AxisId) (r : RigId) :
    (∀ m ∈ (s.rig r).members, m ∈ s.opening n ∧ (s.ctx m).state.opened = .follow)
      ∨ ∀ m ∈ (s.rig r).members, m ∈ s.opening n → ((s.ctx m).state.opened = .follow ↔ (s.ctx m).state = .follow) := by
  unfold State.opening
  split
  case h_1 o stands =>
    refine .inr fun m _ on => ?_
    obtain rfl : m = n := by split at on <;> simp_all
    simp [stands, AxisState.opened]
  case h_2 o stands =>
    split
    case h_1 lone =>
      refine .inr fun m hm on => ?_
      obtain rfl : m = n := by split at on <;> simp_all
      exact absurd hm (State.not_mem_of_rigOf_none lone r)
    case h_2 q own =>
      split
      case isTrue all =>
        by_cases e : r = q
        · subst e
          refine .inl fun m hm => ⟨hm, AxisState.opened_of_openToFollow ?_⟩
          rw [← all] at hm
          exact (List.mem_filter.mp hm).2
        · exact .inr fun m hm on => absurd (apart r q m hm on) e
      case isFalse => exact .inr (by simp)
  case h_3 => exact .inr (by simp)

theorem State.judgeOpening_abides (s : State) (n : AxisId) : s.Abides (s.judgeOpening n) := by
  refine .ite (fun armed => ?_) fun _ => .refl s
  have keeps := State.keepsBut_foldl (fun st m => st.openAxis m) State.openAxis_keeps (s.opening n) s
  have states := State.openAxes_state (s.opening n) s
  generalize (s.opening n).foldl (fun st m => st.openAxis m) s = t at keeps states
  have rigTable : t.rigTable = s.rigTable := keeps .rigTable (by decide)
  have governor : t.governor = s.governor := keeps .governor (by decide)
  refine ⟨fun m a => absurd a.1 (State.not_tripTaken_of_armed (governor ▸ armed)), .of_rigTable rigTable, ?_⟩
  intro apart law r k hk stands m hm
  rw [State.rig_congr rigTable] at hk hm
  rw [states] at stands ⊢
  rcases State.opening_whole apart n r with all | none
  · simp [all m hm]
  · have stood : (s.ctx k).state = .follow := by
      split at stands
      · exact (none k hk ‹_›).mp stands
      · exact stands
    have stoodToo := law r k hk stood m hm
    split
    · exact (none m hm ‹_›).mpr stoodToo
    · exact stoodToo

/-! ## RELEASE, LOCK and RECOVER -/

theorem State.judgeRelease_ok {s : State} {f : Frame} {g : Target} (target : f.target = .ok g)
    (h : s.judgeRelease f = .ok) : s.governor.state = .armed ∧ ∀ n ∈ s.covered g, (s.ctx n).state = .locked := by
  unfold State.judgeRelease at h
  rw [target] at h
  dsimp only at h
  split at h
  · cases h
  case isFalse armed =>
    split at h
    · cases h
    split at h
    · cases h
    next covered => exact ⟨by simpa using armed, by simpa using covered⟩

theorem State.Calm.releasedCtx {s t : State} (h : s.Calm t) {n : AxisId} (armed : s.governor.state = .armed)
    (locked : (s.ctx n).state = .locked) (next : ReleaseNext) : s.Calm (t.changeCtx n (s.releasedCtx next n)) :=
  State.Halts.changeCtx h (by simp [locked, State.releasedCtx]) fun trip =>
    absurd trip (State.not_tripTaken_of_armed armed)

theorem State.releaseEffect_abides {s : State} {f : Frame} (h : s.judgeRelease f = .ok) :
    s.Abides (s.releaseEffect f) := by
  unfold State.releaseEffect
  split
  · exact .refl s
  next g target =>
    obtain ⟨armed, locked⟩ := State.judgeRelease_ok target h
    have released : s.Calm ((s.covered g).foldl (fun st n => st.changeCtx n (s.releasedCtx .follow n)) s) :=
      List.foldlRecOn (motive := s.Calm) _ _ (.refl s) fun _ c n hn =>
        State.Calm.releasedCtx c armed (locked n hn) .follow
    dsimp only
    split
    · exact released.abides
    · exact released.abides.trans (State.judgeOpening_abides _ _)

theorem State.lockAxis_halts (s : State) (n : AxisId) : s.Halts [n] (s.lockAxis n) := by
  unfold State.lockAxis
  split
  case h_4 follow _ _ => exact (State.Calm.refl s).halts follow
  all_goals exact State.enterState_halts rfl

theorem State.judgeLock_ok {s : State} {f : Frame} {g : Target} (target : f.target = .ok g) (h : s.judgeLock f = .ok) :
    s.lockTargetStands g = true := by
  unfold State.judgeLock at h
  rw [target] at h
  dsimp only at h
  split at h
  · cases h
  split at h
  · cases h
  next stands => simpa using stands

/-- A lock reaches a whole rig, an axis in no rig, or axes none of which is in FOLLOW (R111). -/
theorem State.lockReach_whole {s : State} (apart : s.RigsApart) {g : Target} (stands : s.lockTargetStands g = true)
    {n : AxisId} (hn : n ∈ s.lockReach g) (follows : (s.ctx n).state = .follow) {r : RigId}
    (hr : n ∈ (s.rig r).members) {m : AxisId} (hm : m ∈ (s.rig r).members) : m ∈ s.lockReach g := by
  cases g with
  | rig q =>
    obtain rfl := apart r q n hr hn
    exact hm
  | axis k =>
    have away : n ≠ k := by
      rintro rfl
      rcases Bool.or_eq_true_iff.mp stands with lone | recovering
      · exact State.not_mem_of_rigOf_none (Option.isNone_iff_eq_none.mp lone) r hr
      · simp [follows, AxisState.recoveringOrToward] at recovering
    unfold State.lockReach at hn
    dsimp only at hn
    split at hn
    · simp [away, follows, AxisState.code] at hn
    · simp [away] at hn

theorem State.lockEffect_abides {s : State} {f : Frame} (h : s.judgeLock f = .ok) : s.Abides (s.lockEffect f) := by
  unfold State.lockEffect
  split
  · exact .refl s
  next g target =>
    exact (State.Halts.foldl State.lockAxis_halts (s.lockReach g) s).abides fun apart _ hn follows _ hr _ hm =>
      State.lockReach_whole apart (State.judgeLock_ok target h) hn follows hr hm

theorem State.judgeRecover_ok {s : State} {f : Frame} (h : s.judgeRecover f = .ok) :
    s.governor.state = .armed ∧ (s.ctx (axisIdOf (u8 f.payload 1))).state = .locked := by
  unfold State.judgeRecover at h
  split at h
  · cases h
  next armed =>
    split at h
    next small =>
      have axis : axisIdOf (u8 f.payload 1) = ⟨u8 f.payload 1, small⟩ := Fin.ext (Nat.mod_eq_of_lt small)
      unfold State.judgeRecoverAxis at h
      dsimp only at h
      split at h
      · cases h
      next locked => exact ⟨by simpa using armed, by simpa [axis] using locked⟩
    · cases h

theorem State.recoverEffect_abides {s : State} {f : Frame} (h : s.judgeRecover f = .ok) :
    s.Abides (s.recoverEffect f) := by
  obtain ⟨armed, locked⟩ := State.judgeRecover_ok h
  exact (State.Calm.releasedCtx (.refl s) armed locked .recovering).abides.trans (State.judgeOpening_abides _ _)

/-! ## Governor requests and answers -/

/-- An operation after which the governor is not TRIPPED, and which leaves the rigs and FOLLOW alone. -/
theorem State.Calm.of_not_tripped {s t : State} (rigTable : t.rigTable = s.rigTable) (off : t.governor.state ≠ .tripped)
    (follow : ∀ m, (t.ctx m).state = .follow ↔ (s.ctx m).state = .follow) : s.Calm t where
  rigTable := rigTable
  taken a := absurd a.1 off
  follow m := by simp [follow]
  ended a := absurd a.1 off

theorem State.emptyPassthrough_calm (s : State) (b : BranchId) : s.Calm (s.emptyPassthrough b) :=
  have counted := State.keepsBut_foldl (fun st _ => st.bump .passBlocked) (fun st _ => st.bump_keeps .passBlocked)
    (s.branch b).passthrough s
  (State.Calm.of_keepsBut counted).trans (.of_keepsBut (State.setBranch_keeps _ b _))

theorem State.enterArmed_calm (s : State) : s.Calm s.enterArmed :=
  .of_not_tripped rfl (by simp [State.enterArmed]) fun _ => .rfl

theorem State.armEffect_calm (s : State) : s.Calm s.armEffect := by
  refine State.Calm.trans (State.Calm.trans ?armed (State.emptyPassthrough_calm _ .b0))
    (State.emptyPassthrough_calm _ .b1)
  refine .of_not_tripped rfl (by simp [State.enterArmed]) fun m => ?_
  simp only [State.ctx, Bank.at_mapIdx, State.enterArmed]
  split
  next standby => simp [standby, Ctx.lockAtReport]
  next => rfl

theorem State.disarmEffect_calm (s : State) : s.Calm s.disarmEffect := by
  refine .of_not_tripped rfl (by simp [State.disarmEffect]) fun m => ?_
  simp only [State.ctx, Bank.at_mapIdx, State.disarmEffect]
  split
  next locked => simp [locked]
  next => rfl

theorem State.emptyQueues_calm (s : State) (p : PortId) : s.Calm (s.emptyQueues p) := by
  unfold State.emptyQueues
  split
  · exact .of_states rfl id fun _ => rfl
  · exact .of_keepsBut (s.setBranch_keeps _ _)

theorem portReset_calm (lineAtMark : Bool) (f : Frame) (s : State) : s.Calm (portReset lineAtMark f s).1 := by
  unfold portReset
  split
  · exact .refl s
  split
  · exact .refl s
  next p _ _ =>
    have port := State.Calm.of_keepsBut (s.setPort_keeps p ((s.port p).afterReset lineAtMark s.clock))
    exact port.trans (State.emptyQueues_calm _ p)

theorem readCounters_calm (f : Frame) (s : State) : s.Calm (readCounters f s).1 := by
  have cleared (sel : Selector) : s.Calm (s.clearSelected sel) := by
    cases sel with
    | port p => exact .of_keepsBut (s.setPort_keeps p _)
    | globals => exact .of_states rfl id fun _ => rfl
  unfold readCounters
  split
  · exact .refl s
  dsimp only
  split
  · exact .refl s
  · exact cleared _
  · exact .refl s

theorem ackEvents_calm (f : Frame) (s : State) : s.Calm (ackEvents f s).1 := by
  unfold ackEvents
  dsimp only
  split
  · exact .refl s
  · exact .of_states rfl id fun _ => rfl

theorem readTable_state (f : Frame) (s : State) : (readTable f s).1 = s := by
  unfold readTable
  split <;> rfl

theorem judged_abides {check : Frame → State → Result} {effect : Frame → State → State} {f : Frame} {s : State}
    (h : check f s = .ok → s.Abides (effect f s)) : s.Abides (judged check effect f s).1 := by
  by_cases ok : check f s = .ok
  · rw [judged_ok _ _ ok]; exact h ok
  · rw [judged_refused _ _ ok]; exact .refl s

/-! ## What every step keeps

A written axis or rig entry touches no axis in FOLLOW: in SAFE none is, and outside SAFE R73 refuses it. That needs the
law of the modes, so a step keeps the law of the rigs from all the hypotheses of `Obligations.RigsLawKept`. -/

/-- What every step keeps: no axis goes astray, and the law of the rigs under the laws of the tables and modes. -/
structure State.Orderly (s t : State) : Prop where
  astray : ∀ m, t.astray m → s.astray m
  rigs : s.TablesLaw → s.ModesLaw → s.RigsLaw → t.RigsLaw

theorem State.Abides.orderly {s t : State} (h : s.Abides t) : s.Orderly t where
  astray := h.astray
  rigs tables _ law := h.rigs tables.rigsApart law

theorem State.Calm.orderly {s t : State} (h : s.Calm t) : s.Orderly t := (State.Calm.abides h).orderly

theorem State.Calm.rigsLaw {s t : State} (h : s.Calm t) (law : s.RigsLaw) : t.RigsLaw := by
  intro r n hn stands m hm
  rw [State.rig_congr h.rigTable] at hn hm
  have keeps (k : AxisId) : (t.ctx k).state = .follow ↔ (s.ctx k).state = .follow := by simpa using h.follow k
  exact (keeps m).mpr (law r n hn ((keeps n).mp stands) m hm)

theorem State.Orderly.calm {s t u : State} (h : s.Orderly t) (g : t.Calm u) : s.Orderly u where
  astray m a := h.astray m ((State.Calm.abides g).astray m a)
  rigs tables modes law := State.Calm.rigsLaw g (h.rigs tables modes law)

theorem State.ModesLaw.not_follow_of_safe {s : State} (h : s.ModesLaw) (safe : s.governor.state = .safe) (n : AxisId) :
    (s.ctx n).state ≠ .follow := by
  have := h n
  rw [if_pos safe] at this
  rcases this with e | e <;> simp [e]

/-! ## WRITE_TABLE -/

/-- A list of entries is answered OK only when no entry is refused; a check never answers OK itself. -/
theorem findSome?_ok {α : Type} {l : List α} {check : α → Option Result} (never : ∀ e ∈ l, check e ≠ some .ok)
    (h : (l.findSome? check).getD .ok = .ok) : ∀ e ∈ l, check e = none := by
  cases found : l.findSome? check with
  | none => exact List.findSome?_eq_none_iff.mp found
  | some r =>
    rw [found] at h
    obtain ⟨e, he, answer⟩ := List.exists_of_findSome?_eq_some found
    obtain rfl : r = .ok := h
    exact absurd answer (never e he)

/-- An axis entry is accepted in SAFE, or while its axis stands LOCKED or OFFLINE (R73). -/
theorem State.judgeAxisEntry_cases (s : State) (union : Vector AxisEntry 8) (e : Nat × List Byte) :
    s.judgeAxisEntry union e ≠ some .ok ∧ (s.judgeAxisEntry union e = none →
      s.governor.state = .safe ∨ (s.ctx (axisIdOf e.1)).state = .locked ∨ (s.ctx (axisIdOf e.1)).state = .offline) := by
  unfold State.judgeAxisEntry
  dsimp only
  split
  · simp
  split
  · simp
  split
  · simp
  split
  · simp
  split
  · simp
  next allowed =>
    refine ⟨by simp, fun _ => ?_⟩
    by_contra refused
    push Not at refused
    exact allowed ⟨refused.1, .inl refused.2⟩

/-- A rig entry is accepted in SAFE, or while every member it lists is LOCKED (R73). -/
theorem State.judgeRigEntry_cases (s : State) (union : Vector (List Nat) 4) (e : Nat × List Byte) :
    s.judgeRigEntry union e ≠ some .ok ∧ (s.judgeRigEntry union e = none →
      s.governor.state = .safe ∨ ∀ n ∈ (RigEntry.decode e.2).members, (s.ctx n).state = .locked) := by
  unfold State.judgeRigEntry
  dsimp only
  split
  · simp
  split
  · simp
  split
  · exact ⟨by simp, fun _ => .inl ‹_›⟩
  · refine ⟨by simp, fun none => .inr fun n hn => ?_⟩
    have all := List.find?_eq_none.mp (Option.map_eq_none_iff.mp none) n (List.mem_append_right _ hn)
    simpa using all

/-- An applied axis entry may take its axis, and no other, out of FOLLOW (R75, R102). -/
theorem State.applyAxis_halts (s : State) (n : AxisId) (old : AxisEntry) :
    ∃ l ⊆ [n], s.Halts l (s.applyAxis n old) := by
  have reset {x : Ctx} (h : x.state.endedByTrip = false) : s.Halts [n] (s.changeCtx n x) := State.changeCtx_halts h
  unfold State.applyAxis
  dsimp only
  split
  · exact ⟨[n], by simp, (reset rfl).calm (State.setContest_calm _ n _)⟩
  split
  · exact ⟨[n], by simp, (reset rfl).calm ((State.setContest_calm _ n _).trans (State.reportStuck_calm _))⟩
  split
  · exact ⟨[], by simp, State.setCtx_calm rfl⟩
  · exact ⟨[], by simp, State.Calm.refl s⟩

theorem State.applyAxes_halts (old : AxisId → AxisEntry) (l : List (Nat × List Byte)) (s : State) :
    ∃ k ⊆ l.map (fun e => axisIdOf e.1),
      s.Halts k (l.foldl (fun st e => st.applyAxis (axisIdOf e.1) (old (axisIdOf e.1))) s) := by
  induction l generalizing s with
  | nil => exact ⟨[], by simp, State.Calm.refl s⟩
  | cons e l ih =>
    obtain ⟨j, hj, first⟩ := s.applyAxis_halts (axisIdOf e.1) (old (axisIdOf e.1))
    obtain ⟨k, hk, rest⟩ := ih (s.applyAxis (axisIdOf e.1) (old (axisIdOf e.1)))
    refine ⟨j ++ k, List.append_subset.mpr ⟨fun m hm => ?_, fun m hm => ?_⟩, first.trans rest⟩
    · exact List.mem_cons.mpr (.inl (by simpa using hj hm))
    · exact List.mem_cons_of_mem _ (hk hm)

theorem State.writeAxes_orderly {s : State} {f : Frame} (h : s.judgeWrite .axis f = .ok) :
    s.Orderly (s.writeAxes f) := by
  obtain ⟨l, sub, halts⟩ := State.applyAxes_halts s.entry (carriedAll .axis f)
    { s with axisTable := unionOf AxisEntry.decode (carriedAll .axis f) s.axisTable }
  refine ⟨fun m => halts.astray m, fun tables modes law => ?_⟩
  refine (halts.abides fun _ n hn follows => ?_).rigs tables.rigsApart law
  obtain ⟨e, he, rfl⟩ := List.mem_map.mp (sub hn)
  have accepted := findSome?_ok (fun e _ => (s.judgeAxisEntry_cases _ e).1) h e he
  rcases (s.judgeAxisEntry_cases _ e).2 accepted with safe | locked | offline
  · exact absurd follows (modes.not_follow_of_safe safe _)
  · exact absurd (locked.symm.trans follows) (by simp)
  · exact absurd (offline.symm.trans follows) (by simp)

theorem State.writeRigs_keeps (s : State) (f : Frame) :
    State.keepsBut [.dwell] { s with rigTable := unionOf RigEntry.decode (carriedAll .rig f) s.rigTable }
      (s.writeRigs f) :=
  State.keepsBut_foldl _ (fun st (e : Nat × List Byte) => st.setDwell_keeps ⟨e.1 % 4, by omega⟩ none) _ _

theorem State.writeRigs_orderly {s : State} {f : Frame} (h : s.judgeWrite .rig f = .ok) :
    s.Orderly (s.writeRigs f) := by
  have applied := State.Calm.of_keepsBut (s.writeRigs_keeps f)
  refine ⟨applied.astray, fun _ modes law => State.Calm.rigsLaw applied ?_⟩
  intro r n hn (stands : (s.ctx n).state = .follow) m hm
  unfold State.rig at hn hm
  dsimp only at hn hm
  rw [unionOf_carriedAll] at hn hm
  split at hn
  next range =>
    have carriedEntry : (r.val, carried .rig f (r.val - headFirst f)) ∈ carriedAll .rig f :=
      List.mem_map.mpr ⟨r.val - headFirst f, List.mem_range.mpr (by omega), by simp; omega⟩
    have accepted := findSome?_ok (fun e _ => (s.judgeRigEntry_cases _ e).1) h _ carriedEntry
    rcases (s.judgeRigEntry_cases _ _).2 accepted with safe | locked
    · exact absurd stands (modes.not_follow_of_safe safe n)
    · exact absurd ((locked n hn).symm.trans stands) (by simp)
  next range =>
    rw [if_neg range] at hm
    exact law r n hn stands m hm

theorem State.writeGlobals_calm (s : State) (f : Frame) : s.Calm (s.writeGlobals f) := by
  have record : s.Calm { s with globals := Globals.decode (carried .globals f 0) } := .of_states rfl id fun _ => rfl
  have swap (t : State) : t.Calm (t.writeSwap s.globals) := .ite (.refl t) (t.setRouter_calm _)
  exact ((State.Calm.ite (record.trans (State.rewriteCadence_calm _)) record).trans (State.reportChain_calm _)).trans
    (swap _)

theorem State.applyLine_calm (s : State) (k : GenId) (old : LineEntry) : s.Calm (s.applyLine k old) := by
  have removed : s.Calm (s.setNotices (s.engine.notices.filter fun n => !Notice.fromLine (.gl k) n)) :=
    State.setNotices_calm fun h => List.mem_filter.mpr ⟨h, rfl⟩
  have first := State.Calm.ite (c := (Bank.at' s.lineTable k).fn ≠ old.fn ∨ (Bank.at' s.lineTable k).arg ≠ old.arg)
    removed (.refl s)
  unfold State.applyLine
  dsimp only
  split
  · exact first
  · exact .ite (first.trans (State.acceptGen_calm _ k)) first

theorem State.writeLines_abides (s : State) (f : Frame) : s.Abides (s.writeLines f) := by
  have written : s.Calm { s with lineTable := unionOf LineEntry.decode (carriedAll .line f) s.lineTable } :=
    .of_states rfl id fun _ => rfl
  refine (State.Calm.abides written).trans ?_
  exact State.Abides.foldl id _ (fun st (e : Nat × List Byte) => (st.applyLine_calm (genIdOf e.1) _).abides) _ _

theorem writeTable_orderly (f : Frame) (s : State) : s.Orderly (writeTable f s).1 := by
  unfold writeTable
  split
  next t _ _ =>
    split
    next ok =>
      cases t with
      | axis => exact State.writeAxes_orderly ok
      | rig => exact State.writeRigs_orderly ok
      | globals => exact (s.writeGlobals_calm f).orderly
      | line => exact (s.writeLines_abides f).orderly
    next => exact (State.Abides.refl s).orderly
  next => exact (State.Abides.refl s).orderly

/-! ## Requests and notices as the engine takes them -/

theorem State.answer_orderly {eff : Frame → State → State × Reply} (h : ∀ f (s : State), s.Orderly (eff f s).1)
    (s : State) (f : Frame) : s.Orderly (s.answer f eff) := by
  rcases s.answer_cases f eff with ⟨-, e⟩ | ⟨-, e⟩ <;> rw [e]
  · exact (h f s).calm (.of_keepsBut (State.placeResponse_keeps _ _))
  · exact ((s.latchEvent_calm _).trans (State.bump_calm _ _)).orderly

theorem State.takeRequest_orderly {eff : Frame → State → State × Reply} (h : ∀ f (s : State), s.Orderly (eff f s).1)
    (s : State) (k : ReqKind) : s.Orderly (s.takeRequest k eff) := by
  rcases s.takeRequest_cases k eff with ⟨e, -⟩ | ⟨r, -, -, -, e⟩ <;> rw [e]
  · exact (State.Abides.refl s).orderly
  · have answered := State.answer_orderly h (s.dropHead .u) r.frame
    have taken : s.Orderly ((s.dropHead .u).answer r.frame eff) := ⟨answered.astray, answered.rigs⟩
    exact taken.calm (State.route_calm _ .u)

/-- The head of the list is taken; the trip entry still waits where it waited behind it. -/
theorem State.dropNotice_calm {s : State} {n : Notice} (h : s.arbiter = some (.notice n)) (other : n ≠ .tripEntry) :
    s.Calm s.dropNotice := by
  obtain ⟨-, rest, list⟩ := State.arbiter_notice h
  refine State.setNotices_calm fun waits => ?_
  rw [list] at waits ⊢
  simpa [Ne.symm other] using waits

theorem State.takeNotice_abides {effect : Notice → Option (State → State)}
    (h : ∀ n e, effect n = some e → n ≠ .tripEntry ∧ ∀ s : State, s.Abides (e s)) (s : State) :
    s.Abides (s.takeNotice effect) := by
  rcases s.takeNotice_cases effect with ⟨e, -⟩ | ⟨n, e, chosen, named, eq⟩
  · rw [e]; exact .refl s
  · obtain ⟨other, abides⟩ := h n e named
    rw [eq]
    exact (State.dropNotice_calm chosen other).abides.trans (abides _)

theorem State.senseTaken_abides (n : AxisId) (active : Bool) (s : State) : s.Abides (s.senseTaken n active) := by
  unfold State.senseTaken
  split
  next stands =>
    have flagged (next : ReleaseNext) : s.Calm (s.enterState n (.releasing next active)) :=
      State.Halts.changeCtx (.refl s) (by simp [stands]) fun _ _ => by simp [stands, AxisState.endedByTrip]
    exact (flagged _).abides.trans (State.judgeOpening_abides _ n)
  · exact .refl s

theorem senseEffect_abides (n : Notice) (e : State → State) (h : senseEffect n = some e) :
    n ≠ .tripEntry ∧ ∀ s : State, s.Abides (e s) := by
  unfold senseEffect at h
  split at h
  · cases h; exact ⟨by simp, State.senseTaken_abides _ _⟩
  · cases h

theorem eotEffect_abides (n : Notice) (e : State → State) (h : eotEffect n = some e) :
    n ≠ .tripEntry ∧ ∀ s : State, s.Abides (e s) := by
  unfold eotEffect at h
  split at h
  · cases h; exact ⟨by simp, fun s => .ite (fun _ => s.raiseAlone_abides _ _) fun _ => .refl s⟩
  · cases h

theorem stopClearEffect_abides (n : Notice) (e : State → State) (h : stopClearEffect n = some e) :
    n ≠ .tripEntry ∧ ∀ s : State, s.Abides (e s) := by
  unfold stopClearEffect at h
  split at h
  · cases h; exact ⟨by simp, .refl⟩
  · cases h; exact ⟨by simp, .refl⟩
  · cases h

theorem State.rigHold_abides (s : State) (r : RigId) : s.Abides (s.rigHold r) := by
  unfold State.rigHold
  split
  · exact .refl s
  · exact .ite (fun _ => s.raiseAloneOnce_abides _ _) fun _ => .refl s

theorem rigHoldEffect_abides (table : Vector LineEntry 6) (n : Notice) (e : State → State)
    (h : rigHoldEffect table n = some e) : n ≠ .tripEntry ∧ ∀ s : State, s.Abides (e s) := by
  unfold rigHoldEffect at h
  split at h
  · split at h
    · cases h; exact ⟨by simp, fun s => .ite (fun _ => s.rigHold_abides _) fun _ => .refl s⟩
    · cases h
  · cases h

theorem armKeyEffect_abides (table : Vector LineEntry 6) (n : Notice) (e : State → State)
    (h : armKeyEffect table n = some e) : n ≠ .tripEntry ∧ ∀ s : State, s.Abides (e s) := by
  unfold armKeyEffect at h
  split at h
  · split at h
    · cases h; exact ⟨by simp, .refl⟩
    · cases h
  · cases h

theorem contestEffect_abides (n : Notice) (e : State → State) (h : contestEffect n = some e) :
    n ≠ .tripEntry ∧ ∀ s : State, s.Abides (e s) := by
  unfold contestEffect at h
  split at h
  · cases h; exact ⟨by simp, fun s => s.raiseAlone_abides _ _⟩
  · cases h

/-! ## Trip entry -/

theorem AxisState.afterTrip_allowed (settle : Nat) (st : AxisState) : (st.afterTrip settle).endedByTrip = false := by
  cases st <;> rfl

theorem State.endAxes_allowed (l : List AxisId) (s : State) (m : AxisId)
    (h : m ∈ l ∨ (s.ctx m).state.endedByTrip = false) :
    ((l.foldl (fun st n => st.enterState n ((st.ctx n).state.afterTrip (st.entry n).settle)) s).ctx m).state.endedByTrip
      = false := by
  induction l generalizing s with
  | nil => simpa using h
  | cons n l ih =>
    refine ih _ ?_
    by_cases e : n = m
    · exact .inr (by simp [State.enterState, e, AxisState.afterTrip_allowed])
    · simpa [State.enterState, e, Ne.symm e] using h

theorem State.setDwells_ctx (s : State) (x : Vector (Option Nat) 4) (m : AxisId) :
    State.ctx { s with dwell := x } m = s.ctx m := rfl

/-- Trip entry leaves no axis where R125 forbids it (R124). -/
theorem State.tripEntry_allowed (s : State) (m : AxisId) : (s.tripEntry.ctx m).state.endedByTrip = false := by
  have ended := State.endAxes_allowed allAxes s m (.inl (mem_allAxes m))
  rwa [State.tripEntry, State.setDwells_ctx]

theorem State.tripEntry_halts (s : State) : s.Halts allAxes s.tripEntry := by
  have axes := State.Halts.foldl (f := fun st n => st.enterState n ((st.ctx n).state.afterTrip (st.entry n).settle))
    (fun _ _ => State.enterState_halts (AxisState.afterTrip_allowed _ _)) allAxes s
  unfold State.tripEntry
  exact axes.calm (State.setDwells_calm _ _)

theorem State.takeTripEntry_abides (s : State) : s.Abides (s.takeNotice tripEffect) := by
  rcases s.takeNotice_cases tripEffect with ⟨e, -⟩ | ⟨n, e, -, named, eq⟩
  · rw [e]; exact .refl s
  · unfold tripEffect at named
    split at named
    · obtain rfl : State.tripEntry = e := Option.some.inj named
      rw [eq]
      have kept := s.dropNotice.tripEntry_halts.abides fun _ _ _ _ _ _ m _ => mem_allAxes m
      refine ⟨fun m a => ?_, kept.apart, kept.rigs⟩
      have ended := a.2
      rw [State.tripEntry_allowed] at ended
      cases ended
    · cases named

/-! ## RESET_N -/

theorem State.released_abides (s : State) (pins : Vector Bool 36) (uMark daMark dbMark : Bool) (pending : List Instr) :
    s.Abides (State.released pins uMark daMark dbMark pending) := by
  have empty (r : RigId) : ((State.released pins uMark daMark dbMark pending).rig r).members = [] := by
    simp [State.rig, State.released, RigEntry.initial]
  exact ⟨fun m a => absurd a.1.1 (by simp [State.released]), fun _ r q n h => by simp [empty] at h,
    fun _ _ r n h => by simp [empty] at h⟩

theorem State.assertReset_abides (s : State) : s.Abides s.assertReset := by
  refine (s.released_abides s.pins true true true s.pending).trans (State.Calm.abides ?_)
  exact .of_states rfl id fun _ => rfl

/-! ## Every step -/

theorem act_orderly {f : State → State} {s t : State} (h : s.Orderly (f s)) (next : act f s = .next t) :
    s.Orderly t := by
  unfold act at next
  cases next
  split
  · exact (State.Abides.refl s).orderly
  · exact h.calm (.of_keepsBut (State.drive_keeps _))

theorem act_calm {f : State → State} {s t : State} (h : s.Calm (f s)) : act f s = .next t → s.Orderly t :=
  act_orderly (State.Calm.orderly h)

theorem act_abides {f : State → State} {s t : State} (h : s.Abides (f s)) : act f s = .next t → s.Orderly t :=
  act_orderly h.orderly

theorem request_abides {k : ReqKind} {eff : Frame → State → State × Reply} (h : ∀ f (s : State), s.Abides (eff f s).1)
    {s t : State} : act (State.takeRequest k eff) s = .next t → s.Orderly t :=
  act_orderly (State.takeRequest_orderly (fun f s => (h f s).orderly) s k)

theorem request_calm {k : ReqKind} {eff : Frame → State → State × Reply} (h : ∀ f (s : State), s.Calm (eff f s).1)
    {s t : State} : act (State.takeRequest k eff) s = .next t → s.Orderly t :=
  request_abides fun f s => (h f s).abides

theorem judgedRequest_abides {k : ReqKind} {check : Frame → State → Result} {effect : Frame → State → State}
    (h : ∀ f (s : State), check f s = .ok → s.Abides (effect f s)) {s t : State} :
    act (State.takeRequest k (judged check effect)) s = .next t → s.Orderly t :=
  request_abides fun f s => judged_abides (h f s)

theorem execInputPinChange_orderly {l : LineId} {high : Bool} {wait : Nat} {s t : State}
    (h : execInputPinChange l high wait s = .next t) : s.Orderly t := by
  unfold execInputPinChange at h
  cases h
  split
  · exact (s.setLine_calm l _).orderly
  · exact ((s.pinEvent_calm l high wait).trans (.of_keepsBut (State.drive_keeps _))).orderly

theorem execResetNRelease_orderly {uMark daMark dbMark : Bool} {s t : State}
    (h : execResetNRelease uMark daMark dbMark s = .next t) : s.Orderly t := by
  unfold execResetNRelease at h
  cases h
  exact (State.Abides.ite (fun _ => s.released_abides _ _ _ _ _) fun _ => .refl s).orderly

theorem exec_orderly (c : Instr) (s t : State) (h : exec c s = .next t) : s.Orderly t := by
  cases c with
  | resetNAssert => cases h; exact s.assertReset_abides.orderly
  | resetNRelease uMark daMark dbMark => exact execResetNRelease_orderly h
  | receiveCharacter p octet stopMark span wait =>
    exact act_calm (f := fun s => (s.elapse wait).receive p octet stopMark span)
      ((s.elapse_calm wait).trans (State.receive_calm _ p octet stopMark span)) h
  | gap p => exact act_calm (s.gapEvent_calm p) h
  | longBreak p => exact act_calm (s.longBreakEvent_calm p) h
  | returnToMark p wait =>
    exact act_calm (f := fun s => (s.elapse wait).returnEvent p)
      ((s.elapse_calm wait).trans (State.returnEvent_calm _ p)) h
  | frameComplete p => exact act_calm (s.completeEvent_calm p) h
  | transmitComplete p => exact act_calm (s.transmitEvent_calm p) h
  | paceTimerExpiry => exact act_calm s.paceExpiry_calm h
  | lapseExpiry => exact act_calm s.lapseExpiry_calm h
  | stepStart => exact act_abides s.stepStartEvent_abides h
  | stepCompletion wait => exact act_calm (s.stepCompletionEvent_calm wait) h
  | takeSetpoint => exact act_abides s.takeSetpoint_abides h
  | takeReport => exact act_abides s.takeReport_abides h
  | readTable => exact request_calm (fun f s => by rw [readTable_state]; exact .refl s) h
  | writeTable => exact act_orderly (State.takeRequest_orderly writeTable_orderly s _) h
  | arm => exact judgedRequest_abides (fun _ s _ => s.armEffect_calm.abides) h
  | disarm => exact judgedRequest_abides (fun _ s _ => s.disarmEffect_calm.abides) h
  | stopAll => exact judgedRequest_abides (fun _ s _ => (s.joinCause_calm _).abides) h
  | resetTrip => exact judgedRequest_abides (fun _ s _ => s.enterArmed_calm.abides) h
  | release => exact judgedRequest_abides (fun _ _ => State.releaseEffect_abides) h
  | lock => exact judgedRequest_abides (fun _ _ => State.lockEffect_abides) h
  | recover => exact judgedRequest_abides (fun _ _ => State.recoverEffect_abides) h
  | ackEvents => exact request_calm ackEvents_calm h
  | readLines => exact request_calm (fun _ s => .refl s) h
  | readCounters => exact request_calm readCounters_calm h
  | portReset lineAtMark => exact request_calm (portReset_calm lineAtMark) h
  | unknownRequest => exact request_calm (fun _ s => .refl s) h
  | senseNotice => exact act_abides (State.takeNotice_abides senseEffect_abides s) h
  | eotNotice => exact act_abides (State.takeNotice_abides eotEffect_abides s) h
  | stopClearNotice => exact act_abides (State.takeNotice_abides stopClearEffect_abides s) h
  | rigHoldNotice => exact act_abides (State.takeNotice_abides (rigHoldEffect_abides s.lineTable) s) h
  | armKeyNotice => exact act_abides (State.takeNotice_abides (armKeyEffect_abides s.lineTable) s) h
  | brakeContestNotice => exact act_abides (State.takeNotice_abides contestEffect_abides s) h
  | tripEntry => exact act_abides s.takeTripEntry_abides h
  | inputPinChange l high wait => exact execInputPinChange_orderly h
  | inputAccepted l => exact act_calm (s.inputAccepted_calm l) h
  | settleExpiry n => exact act_calm (s.settleExpiry_calm n) h
  | mismatchExpiry n => exact act_calm (s.mismatchExpiry_calm n) h
  | falseStart p wait =>
    exact act_calm (f := fun s => (s.elapse wait).falseStartEvent p)
      ((s.elapse_calm wait).trans (State.falseStartEvent_calm _ p)) h

theorem step_orderly (s t : State) (h : step s = .next t) : s.Orderly t := by
  unfold step at h
  split at h
  · cases h
    exact (State.Calm.ite (.refl s) (s.elapse_calm 1)).orderly
  next c rest _ =>
    have taken := exec_orderly c { s with pending := rest } t h
    exact ⟨taken.astray, taken.rigs⟩

/-- Settles O12: after the taking of trip entry no step leads an axis astray. -/
theorem afterTripLawKept : Obligations.AfterTripLawKept := by
  intro s t law h
  rw [State.afterTripLaw_iff] at law ⊢
  exact fun m a => law m ((step_orderly s t h).astray m a)

/-- Settles O18: every step opens and halts rigs as a whole. -/
theorem rigsLawKept : Obligations.RigsLawKept :=
  fun s t tables modes law h => (step_orderly s t h).rigs tables modes law

end Sys2Proof.Machine
